-- ==== Sys2Proof/Word.lean ====
section
/-! DEFINITION. The plain types of the model: bytes, 64-bit words and sparse maps. -/

namespace Sys2Proof

/-- A byte of memory or of a message. -/
abbrev Byte := BitVec 8

/-- Every register and every separator register is 64 bits wide (R7, R80). -/
abbrev Word := BitVec 64

/-- A sparse table: keys strictly rising, and no entry equal to what an absent key reads as.
`Machine/Maps.lean` holds its operations. -/
abbrev SMap (α : Type) := List (Nat × α)

end Sys2Proof
end

