-- ==== Sys2Proof/Syntax.lean ====
section
/-! DEFINITION. The commands of the block, one constructor per row of the opcode table, and their operand types. -/

namespace Sys2Proof

/-- The guard of a separator instruction: PN and PR (R84). -/
structure Guard where
  pn : Bool
  pr : BitVec 3
deriving DecidableEq, Repr

/-- Where a register write comes from (R349, R385). -/
inductive Origin where
  | cp | hbp | ladle | image | wrapper
deriving DecidableEq, Repr

/-- The part of a register a write addresses (R7). -/
inductive WSize where
  | full | low | high
deriving DecidableEq, Repr

/-- The origin, requester identifier and size of a register write (R349). -/
structure Org where
  origin : Origin
  rid : BitVec 16
  size : WSize
deriving DecidableEq, Repr

/-- The six kinds of port (R25); `mp` and `fp` are numbered by churn (R12). -/
inductive PortId where
  | mp (n : BitVec 5) | fp (n : BitVec 5) | hbp | pp | cp | ccp
deriving DecidableEq, Repr

/-- A mover channel: a hub channel, or a pail of a churn (R213). -/
inductive ChanId where
  | hub (c : BitVec 6) | pail (n : BitVec 5) (c : BitVec 3)
deriving DecidableEq, Repr

/-- A message that arrives on CCP_INB: bits [127:64] of its header, and the word it carries (R28, R29). -/
structure CcpMsg where
  h : Word
  w : Word
deriving DecidableEq, Repr

/-- A request that arrives on a channel the block receives on: its header fields and its data
(R28, R30). `beOk` says that the byte enables are contiguous and fit the message (R31). -/
structure Req where
  opc : BitVec 8
  tag : BitVec 16
  oc : BitVec 2
  chip : BitVec 17
  len : BitVec 12
  addr : BitVec 64
  rid : BitVec 16
  beOk : Bool
  data : List Byte
deriving DecidableEq, Repr

/-- What ends the aon-only state (R360). -/
inductive WakeCause where
  | request | linkRise | timer
deriving DecidableEq, Repr

/-- The commands of the block (spec/opcode_table.json). `g` is an instruction's guard, `o` the origin
of a register write, `n` a churn, `id` the number of a churn op, `r` a ring. -/
inductive Instr where
  /-- NOP, R88. -/
  | nop (g : Guard)
  /-- HALT, R108. -/
  | halt (g : Guard)
  /-- TRAP, R108. -/
  | trap (g : Guard) (imm : BitVec 36)
  /-- RDSR, R108. -/
  | rdsr (g : Guard) (d idx : BitVec 6)
  /-- WRSR, R108. -/
  | wrsr (g : Guard) (a idx : BitVec 6)
  /-- RTE, R108. -/
  | rte (g : Guard)
  /-- ADD, R89. -/
  | add (g : Guard) (d a b : BitVec 6)
  /-- SUB, R89. -/
  | sub (g : Guard) (d a b : BitVec 6)
  /-- AND, R89. -/
  | and (g : Guard) (d a b : BitVec 6)
  /-- OR, R89. -/
  | or (g : Guard) (d a b : BitVec 6)
  /-- XOR, R89. -/
  | xor (g : Guard) (d a b : BitVec 6)
  /-- SHL, R89. -/
  | shl (g : Guard) (d a b : BitVec 6)
  /-- SHR, R89. -/
  | shr (g : Guard) (d a b : BitVec 6)
  /-- SRA, R89. -/
  | sra (g : Guard) (d a b : BitVec 6)
  /-- MIN, R89. -/
  | min (g : Guard) (d a b : BitVec 6)
  /-- MAX, R89. -/
  | max (g : Guard) (d a b : BitVec 6)
  /-- MINU, R89. -/
  | minu (g : Guard) (d a b : BitVec 6)
  /-- MAXU, R89. -/
  | maxu (g : Guard) (d a b : BitVec 6)
  /-- MUL, R89. -/
  | mul (g : Guard) (d a b : BitVec 6)
  /-- MULHU, R89. -/
  | mulhu (g : Guard) (d a b : BitVec 6)
  /-- DIVU, R89. -/
  | divu (g : Guard) (d a b : BitVec 6)
  /-- REMU, R89. -/
  | remu (g : Guard) (d a b : BitVec 6)
  /-- ADDI, R89. -/
  | addi (g : Guard) (d a : BitVec 6) (imm : BitVec 36)
  /-- ANDI, R89. -/
  | andi (g : Guard) (d a : BitVec 6) (imm : BitVec 36)
  /-- ORI, R89. -/
  | ori (g : Guard) (d a : BitVec 6) (imm : BitVec 36)
  /-- XORI, R89. -/
  | xori (g : Guard) (d a : BitVec 6) (imm : BitVec 36)
  /-- SHLI, R89. -/
  | shli (g : Guard) (d a : BitVec 6) (imm : BitVec 36)
  /-- SHRI, R89. -/
  | shri (g : Guard) (d a : BitVec 6) (imm : BitVec 36)
  /-- SRAI, R89. -/
  | srai (g : Guard) (d a : BitVec 6) (imm : BitVec 36)
  /-- LI, R89. -/
  | li (g : Guard) (d : BitVec 6) (imm : BitVec 36)
  /-- LIH, R89. -/
  | lih (g : Guard) (d : BitVec 6) (imm : BitVec 28)
  /-- CEQ, R89. -/
  | ceq (g : Guard) (pd : BitVec 3) (a b : BitVec 6)
  /-- CNE, R89. -/
  | cne (g : Guard) (pd : BitVec 3) (a b : BitVec 6)
  /-- CLT, R89. -/
  | clt (g : Guard) (pd : BitVec 3) (a b : BitVec 6)
  /-- CLTU, R89. -/
  | cltu (g : Guard) (pd : BitVec 3) (a b : BitVec 6)
  /-- CLE, R89. -/
  | cle (g : Guard) (pd : BitVec 3) (a b : BitVec 6)
  /-- CLEU, R89. -/
  | cleu (g : Guard) (pd : BitVec 3) (a b : BitVec 6)
  /-- PAND, R89. -/
  | pand (g : Guard) (pd pa pb : BitVec 3)
  /-- POR, R89. -/
  | por (g : Guard) (pd pa pb : BitVec 3)
  /-- PXOR, R89. -/
  | pxor (g : Guard) (pd pa pb : BitVec 3)
  /-- PANDN, R89. -/
  | pandn (g : Guard) (pd pa pb : BitVec 3)
  /-- LD, R90. -/
  | ld (g : Guard) (d a : BitVec 6) (imm : BitVec 36)
  /-- ST, R90. -/
  | st (g : Guard) (d a : BitVec 6) (imm : BitVec 36)
  /-- LDT, R90. -/
  | ldt (g : Guard) (t : BitVec 4) (a : BitVec 6) (imm : BitVec 26)
  /-- STT, R90. -/
  | stt (g : Guard) (t : BitVec 4) (a : BitVec 6) (imm : BitVec 26)
  /-- TGETW, R90. -/
  | tgetw (g : Guard) (d : BitVec 6) (t : BitVec 4) (w : BitVec 2)
  /-- TSETW, R90. -/
  | tsetw (g : Guard) (t : BitVec 4) (a : BitVec 6) (w : BitVec 2)
  /-- BR, R91. -/
  | br (g : Guard) (tgt : BitVec 15)
  /-- CALL, R91. -/
  | call (g : Guard) (tgt : BitVec 15)
  /-- RET, R91. -/
  | ret (g : Guard)
  /-- MKENT, R94. -/
  | mkent (g : Guard) (t : BitVec 4)
  /-- MKDROP, R94. -/
  | mkdrop (g : Guard) (t : BitVec 4)
  /-- DSET, R95. -/
  | dset (g : Guard) (a b : BitVec 6) (x : BitVec 3)
  /-- DRD, R96. -/
  | drd (g : Guard) (d a : BitVec 6) (x : BitVec 2)
  /-- SPILL, R97. -/
  | spill (g : Guard) (pd : BitVec 3) (a : BitVec 6)
  /-- RECALL, R97. -/
  | recall (g : Guard) (a : BitVec 6)
  /-- DROP, R97. -/
  | drop (g : Guard) (a : BitVec 6)
  /-- REL, R97. -/
  | rel (g : Guard) (a : BitVec 6)
  /-- STIN, R98. -/
  | stin (g : Guard) (t : BitVec 4) (a : BitVec 6)
  /-- STOUT, R99. -/
  | stout (g : Guard) (t : BitVec 4) (a : BitVec 6)
  /-- COP, R100. -/
  | cop (g : Guard) (t : BitVec 4) (a : BitVec 6)
  /-- UPD, R294. -/
  | upd (g : Guard) (t : BitVec 4) (a : BitVec 6)
  /-- TKT, R102. -/
  | tkt (g : Guard) (d : BitVec 6) (t : BitVec 4)
  /-- TKW, R102. -/
  | tkw (g : Guard) (a : BitVec 6)
  /-- SACQ, R103. -/
  | sacq (g : Guard) (a b : BitVec 6) (side : BitVec 1)
  /-- SREL, R103. -/
  | srel (g : Guard) (a b : BitVec 6) (side : BitVec 1)
  /-- FENCE, R104. -/
  | fence (g : Guard) (scope : BitVec 2)
  /-- LFENCE, R105. -/
  | lfence (g : Guard)
  /-- HMV, R106. -/
  | hmv (g : Guard) (a b : BitVec 6)
  /-- HWT, R106. -/
  | hwt (g : Guard) (pd : BitVec 3) (a : BitVec 6)
  /-- EPBEG, R312. -/
  | epbeg (g : Guard)
  /-- EPRDY, R314. -/
  | eprdy (g : Guard) (pd : BitVec 3)
  /-- EPCMT, R318. -/
  | epcmt (g : Guard)
  /-- EPRB, R319. -/
  | eprb (g : Guard)
  /-- SNAP, R107. -/
  | snap (g : Guard)
  /-- LFENCE_TIMEOUT, R105. -/
  | lfenceTimeout
  /-- DEFERRED_FETCH_ENQUEUE, R99. -/
  | deferredFetchEnqueue (slot : BitVec 6)
  /-- SEP_CTL_START, R111. -/
  | sepCtlStart (o : Org) (v : Word)
  /-- SEP_CTL_STOP, R111. -/
  | sepCtlStop (o : Org) (v : Word)
  /-- SEP_CTL_STEP, R111. -/
  | sepCtlStep (o : Org) (v : Word)
  /-- SEP_PC_WRITE, R111. -/
  | sepPcWrite (o : Org) (v : Word)
  /-- INSTRUCTION_MEMORY_WRITE, R112. -/
  | instructionMemoryWrite (o : Org) (i : BitVec 15) (v : Word)
  /-- DATA_MEMORY_WRITE, R92. -/
  | dataMemoryWrite (o : Org) (i : BitVec 15) (v : Word)
  /-- CHURN_OP_ARRIVE, R149. -/
  | churnOpArrive (n : BitVec 5)
  /-- CHURN_OP_DISPATCH, R15. -/
  | churnOpDispatch (n : BitVec 5)
  /-- STREAM_IN_OP, R156. -/
  | streamInOp (n : BitVec 5) (id : Nat)
  /-- STREAM_IN_OP_COMPLETE, R247. -/
  | streamInOpComplete (n : BitVec 5) (id : Nat)
  /-- STREAM_OUT_OP, R157. -/
  | streamOutOp (n : BitVec 5) (id : Nat)
  /-- STREAM_OUT_OP_COMPLETE, R99. -/
  | streamOutOpComplete (n : BitVec 5) (id : Nat)
  /-- TILE_DELIVER, R250. -/
  | tileDeliver (n : BitVec 5) (id : Nat)
  /-- LDVEC, R187. -/
  | ldvec (n : BitVec 5) (id : Nat)
  /-- ROWDOT, R188. -/
  | rowdot (n : BitVec 5) (id : Nat)
  /-- ROWSTAT, R187. -/
  | rowstat (n : BitVec 5) (id : Nat)
  /-- ROW_PARTIAL, R177. -/
  | rowPartial (n : BitVec 5) (id row seg : Nat)
  /-- ROW_STATS_ARRIVE, R177. -/
  | rowStatsArrive (n : BitVec 5) (id row : Nat)
  /-- UPDATE_OP, R295. -/
  | updateOp (n : BitVec 5) (id : Nat)
  /-- UPDATE_OP_COMPLETE, R296. -/
  | updateOpComplete (n : BitVec 5) (id : Nat)
  /-- TICKET_DONE, R123. -/
  | ticketDone (m : CcpMsg)
  /-- LAYER_START, R259. -/
  | layerStart (m : CcpMsg)
  /-- SEM_SIGNAL, R255. -/
  | semSignal (m : CcpMsg)
  /-- CCP_MESSAGE_DROP, R29. -/
  | ccpMessageDrop (hdr : BitVec 128)
  /-- SIG, R254. -/
  | sig (p : PortId) (r : Req)
  /-- INBOUND_WRITE, R246. -/
  | inboundWrite (n : BitVec 5) (r : Req)
  /-- DEADLINE_MISS, R260. -/
  | deadlineMiss (id : Nat)
  /-- CTX_OPEN, R241. -/
  | ctxOpen (o : Org)
  /-- CTX_CLOSE, R241. -/
  | ctxClose (o : Org)
  /-- CTX_READ, R241. -/
  | ctxRead (o : Org)
  /-- STRIPE_WT_WRITE, R244. -/
  | stripeWtWrite (o : Org) (s : BitVec 4) (h : BitVec 1) (v : Word)
  /-- CHUNK_SWEEP, R67. -/
  | chunkSweep (n : BitVec 5)
  /-- REENCODE_COMPLETE, R76. -/
  | reencodeComplete (e : BitVec 17)
  /-- SPILL_COMPLETE, R72. -/
  | spillComplete (e : BitVec 17)
  /-- RECALL_COMPLETE, R72. -/
  | recallComplete (e : BitVec 17)
  /-- COLD_CELLAR_WRITE, R69. -/
  | coldCellarWrite (o : Org) (size : Bool) (v : Word)
  /-- DIR_SEL_WRITE, R68. -/
  | dirSelWrite (o : Org) (v : Word)
  /-- CB_LOAD, R151. -/
  | cbLoad (o : Org) (mask : BitVec 32) (gen : BitVec 4)
  /-- CB_RETIRE, R151. -/
  | cbRetire (o : Org) (mask : BitVec 32) (gen : BitVec 4)
  /-- FORCE_FREE, R151. -/
  | forceFree (o : Org) (mask : BitVec 32) (gen : BitVec 4)
  /-- FT_LOAD, R208. -/
  | ftLoad (o : Org) (mask : BitVec 32) (tid : BitVec 3)
  /-- FT_SWAP, R208. -/
  | ftSwap (o : Org) (mask : BitVec 32) (tid : BitVec 3)
  /-- GO, R233. -/
  | go (o : Org) (c : ChanId)
  /-- RESUME, R233. -/
  | resume (o : Org) (c : ChanId)
  /-- CLR, R233. -/
  | clr (o : Org) (c : ChanId)
  /-- ABORT, R232. -/
  | abort (o : Org) (c : ChanId)
  /-- ABORT_COMPLETE, R232. -/
  | abortComplete (c : ChanId)
  /-- CHANNEL_START, R235. -/
  | channelStart (c : ChanId)
  /-- TRANSFER_COMPLETE, R226. -/
  | transferComplete (c : ChanId)
  /-- MV_HOWN_WRITE, R215. -/
  | mvHownWrite (o : Org) (v : Word)
  /-- MP_RESPONSE, R35. -/
  | mpResponse (p : PortId) (tag : BitVec 16) (stat : BitVec 4) (data : List Byte)
  /-- RESPONSE_TIMEOUT, R46. -/
  | responseTimeout (p : PortId) (tag : BitVec 16)
  /-- CREDIT_RETURN, R38. -/
  | creditReturn (p : PortId) (h : BitVec 4) (d : BitVec 8)
  /-- LINKUP_RISE, R49. -/
  | linkupRise (p : PortId)
  /-- LINKUP_FALL, R47. -/
  | linkupFall (p : PortId)
  /-- CP_REQUEST, R383. -/
  | cpRequest (r : Req)
  /-- HBP_TARGET_REQUEST, R281. -/
  | hbpTargetRequest (r : Req)
  /-- PP_TARGET_REQUEST, R339. -/
  | ppTargetRequest (r : Req)
  /-- SEAL_RECORD, R338. -/
  | sealRecord (r : Req)
  /-- SEAL_WINDOW_RD, R339. -/
  | sealWindowRd (r : Req)
  /-- SEALED_COPY_EXPIRE, R339. -/
  | sealedCopyExpire (chip : BitVec 17) (unit : BitVec 36)
  /-- RING_DB_WRITE, R276. -/
  | ringDbWrite (o : Org) (r : BitVec 4) (v : Word)
  /-- RING_ENABLE, R268. -/
  | ringEnable (o : Org) (r : BitVec 4) (v : Word)
  /-- RING_DISABLE, R268. -/
  | ringDisable (o : Org) (r : BitVec 4) (v : Word)
  /-- COMMAND_FETCH, R266. -/
  | commandFetch (r : BitVec 4)
  /-- COMMAND_FETCH_RESPONSE, R277. -/
  | commandFetchResponse (r : BitVec 4) (stat : BitVec 4) (ws : List Word)
  /-- COMMAND_RETRY, R277. -/
  | commandRetry (r : BitVec 4)
  /-- CMD_TIMEOUT, R272. -/
  | cmdTimeout (r : BitVec 4)
  /-- CMD_NOP, R270. -/
  | cmdNop (r : BitVec 4)
  /-- RUN, R113. -/
  | run (r : BitVec 4)
  /-- RUN_HOLD_COMPLETE, R270. -/
  | runHoldComplete (r : BitVec 4)
  /-- LOAD, R270. -/
  | load (r : BitVec 4)
  /-- LADLE_WR, R273. -/
  | ladleWr (r : BitVec 4)
  /-- LADLE_RD, R273. -/
  | ladleRd (r : BitVec 4)
  /-- MOVE, R271. -/
  | move (r : BitVec 4)
  /-- SEM, R270. -/
  | sem (r : BitVec 4)
  /-- FENCE_COMMAND, R283. -/
  | fenceCommand (r : BitVec 4)
  /-- P2P_ENABLE, R284. -/
  | p2pEnable (o : Org) (k : BitVec 3) (v : Word)
  /-- P2P_PROBE_RESPONSE, R284. -/
  | p2pProbeResponse (k : BitVec 3) (stat : BitVec 4)
  /-- IRQ_MSG_MASK_WRITE, R288. -/
  | irqMsgMaskWrite (o : Org) (v : BitVec 3) (x : Word)
  /-- FLT_STAT_CLEAR, R378. -/
  | fltStatClear (o : Org) (v : Word)
  /-- RC_COUNTER_READ, R378. -/
  | rcCounterRead (o : Org) (off : BitVec 26)
  /-- POP, R196. -/
  | pop (o : Org) (n : BitVec 5)
  /-- PLAN_CTL_CLR, R130. -/
  | planCtlClr (o : Org)
  /-- PRM_ENABLE, R291. -/
  | prmEnable (o : Org) (k : BitVec 8) (v : Word)
  /-- TAKE, R308. -/
  | take (o : Org) (k : BitVec 8)
  /-- PRM_HOLD_REL, R308. -/
  | prmHoldRel (o : Org) (k : BitVec 8)
  /-- COMMIT, R316. -/
  | commit (o : Org) (step : BitVec 32) (snap : Bool)
  /-- STEP_ABORT, R317. -/
  | stepAbort (o : Org) (step : BitVec 32)
  /-- NONFIN, R316. -/
  | nonfin (o : Org) (step : BitVec 32)
  /-- SNAPSHOT_DONE, R323. -/
  | snapshotDone
  /-- SNAP_DUE, R322. -/
  | snapDue
  /-- RESTORE, R328. -/
  | restore (o : Org) (area : Bool)
  /-- RESTORE_DONE, R330. -/
  | restoreDone
  /-- SNAP_ABORT, R331. -/
  | snapAbort (cause : BitVec 3)
  /-- KEY_SLOT_WRITE, R342. -/
  | keySlotWrite (o : Org) (k : BitVec 3) (w : BitVec 2) (v : Word)
  /-- ZERO, R343. -/
  | zero (o : Org) (k : BitVec 3)
  /-- ERASE, R347. -/
  | erase (o : Org) (page : BitVec 7)
  /-- PROGRAM, R347. -/
  | program (o : Org) (page : BitVec 7)
  /-- NV_READ, R347. -/
  | nvRead (o : Org) (page : BitVec 7)
  /-- NV_COMMAND_DONE, R347. -/
  | nvCommandDone
  /-- CL_SEL_WRITE, R350. -/
  | clSelWrite (o : Org) (v : Word)
  /-- REGISTER_WRITE, R8. -/
  | registerWrite (o : Org) (off : BitVec 26) (v : Word)
  /-- PORST_N_ASSERT, R364. -/
  | porstNAssert
  /-- PORST_N_RELEASE, R366. -/
  | porstNRelease
  /-- WRST_N_ASSERT, R364. -/
  | wrstNAssert
  /-- WRST_N_RELEASE, R367. -/
  | wrstNRelease
  /-- WRST, R364. -/
  | wrst (o : Org)
  /-- STARTUP_PHASE_END, R366. -/
  | startupPhaseEnd
  /-- LEAVE, R368. -/
  | leave (o : Org)
  /-- AONONLY, R359. -/
  | aononly (o : Org)
  /-- AON_WAKE, R360. -/
  | aonWake (cause : WakeCause)
  /-- REFLOSS, R355. -/
  | refloss
  /-- PLL_LOCK, R353. -/
  | pllLock
  /-- CHURN_WAKE, R356. -/
  | churnWake (n : BitVec 5)
  /-- CHURN_WAKE_DONE, R356. -/
  | churnWakeDone (n : BitVec 5)
  /-- LANE_GROUP_UP, R356. -/
  | laneGroupUp (n : BitVec 5) (lg : BitVec 4)
  /-- CHURN_IDLE, R357. -/
  | churnIdle (n : BitVec 5)
  /-- CHURN_SLEEP, R357. -/
  | churnSleep (n : BitVec 5)
  /-- OFF, R358. -/
  | off (o : Org) (n : BitVec 5)
  /-- HOLD, R356. -/
  | hold (o : Org) (n : BitVec 5) (v : Word)
  /-- CAP_WINDOW, R361. -/
  | capWindow (hubEst : BitVec 16) (est : List (BitVec 16)) (temp : List Byte)
  /-- VDROOP, R363. -/
  | vdroop
  /-- VDROOP_END, R363. -/
  | vdroopEnd
  /-- VDD_AON_LOW, R363. -/
  | vddAonLow
  /-- MODE_REQUEST, R370. -/
  | modeRequest (o : Org) (v : Word)
  /-- TEST_ENTER, R374. -/
  | testEnter
  /-- DEBUG_UNLOCK, R343. -/
  | debugUnlock
  /-- POWER_ON, R364. -/
  | powerOn
  /-- REFCLK_RETURN, R355. -/
  | refclkReturn
  /-- COP_OP_COMPLETE, R187. -/
  | copOpComplete (n : BitVec 5) (id : Nat)
  /-- DIRECTORY_SWEEP_END, R312. -/
  | directorySweepEnd
deriving DecidableEq, Repr

end Sys2Proof
end

