-- ==== Sys2Proof/WellFormed.lean ====
section
/-! DEFINITION. Which commands are well formed: the static legality of separator instructions (R83), and
operands that agree with one another in the commands that come from outside. -/

namespace Sys2Proof

/-- The data length a request's opcode and LEN give it (R28). -/
def Req.dataLen (r : Req) : Nat :=
  match r.opc.toNat with
  | 2 | 3 => r.len.toNat + 1
  | 4 => 8
  | 5 => 64
  | _ => 0

/-- A request carries the data its opcode and LEN give it (R28). -/
def Req.wf (r : Req) : Bool := r.data.length == r.dataLen

/-- A 32-bit write leaves the half it does not address at 0 (R7). -/
def halfOk (o : Org) (v : Word) : Bool :=
  match o.size with
  | .full => true
  | .low => v.extractLsb' 32 32 == 0
  | .high => v.extractLsb' 0 32 == 0

/-- Whether a command is well formed. -/
def wf : Instr → Bool
  | .rdsr _ _ idx => decide (idx.toNat < 10)
  | .wrsr _ _ idx => idx.toNat == 2 || idx.toNat == 5
  | .dset _ _ _ x => decide (x.toNat < 5)
  | .sepCtlStart o v | .sepCtlStop o v | .sepCtlStep o v | .sepPcWrite o v
  | .coldCellarWrite o _ v | .dirSelWrite o v | .mvHownWrite o v | .fltStatClear o v | .clSelWrite o v
  | .modeRequest o v => halfOk o v
  | .instructionMemoryWrite o _ v | .dataMemoryWrite o _ v | .ringDbWrite o _ v | .ringEnable o _ v
  | .ringDisable o _ v | .p2pEnable o _ v | .irqMsgMaskWrite o _ v | .prmEnable o _ v | .registerWrite o _ v
  | .hold o _ v => halfOk o v
  | .stripeWtWrite o _ _ v | .keySlotWrite o _ _ v => halfOk o v
  | .sig _ r | .inboundWrite _ r | .cpRequest r | .hbpTargetRequest r | .ppTargetRequest r | .sealRecord r
  | .sealWindowRd r => r.wf
  | .mpResponse p _ _ _ => match p with | .mp _ | .hbp | .pp => true | _ => false
  | .commandFetchResponse _ stat ws => stat != 0 || ws.length == 16
  | .capWindow _ est temp => est.length == 32 && temp.length == 32
  | _ => true

end Sys2Proof
end

