-- ==== Sys2Proof/Decode.lean ====
section
/-! DEFINITION. Decoding: the words of the separator's instruction memory (R83, R88), their encoder, and the
host's entry. No row of the opcode table gives a command any bits, so `decodeTableWord` answers none. -/

namespace Sys2Proof

/-- Bits [5:3] of a register field. -/
def hi3 (d : BitVec 6) : BitVec 3 := d.extractLsb' 3 3

/-- Bits [2:0] of a register field. -/
def lo3 (d : BitVec 6) : BitVec 3 := d.extractLsb' 0 3

/-- A predicate's number as a register field. -/
def p6 (p : BitVec 3) : BitVec 6 := (0 : BitVec 3) ++ p

/-- IMM[35:30], in the place of B. -/
def immHi (i : BitVec 36) : BitVec 6 := i.extractLsb' 30 6

/-- IMM[29:0], in the place of X. -/
def immLo (i : BitVec 36) : BitVec 30 := i.extractLsb' 0 30

/-- The T field. -/
def tOf (x : BitVec 30) : BitVec 4 := x.extractLsb' 26 4

/-- The instruction of a word's fields; none where the word is illegal (R83, R88). DESIGN CHOICE (log entry 78): a predicate
operation whose A[5:3] or B[5:3] is not 0 is illegal; the spec reserves the upper bits of D alone. -/
def sepDecodeFields (op fn : Nat) (g : Guard) (d a b : BitVec 6) (x : BitVec 30) : Option Instr :=
  match op, fn with
  | 0x0, 0x0 => if d = 0 ∧ a = 0 ∧ b = 0 ∧ x = 0 then some (.nop g) else none
  | 0x0, 0x1 => if d = 0 ∧ a = 0 ∧ b = 0 ∧ x = 0 then some (.halt g) else none
  | 0x0, 0x2 => if d = 0 ∧ a = 0 then some (.trap g (b ++ x)) else none
  | 0x0, 0x3 => if a = 0 ∧ b = 0 ∧ x.extractLsb' 6 24 = 0 ∧ (x.extractLsb' 0 6).toNat < 10 then some (.rdsr g d (x.extractLsb' 0 6)) else none
  | 0x0, 0x4 => if d = 0 ∧ b = 0 ∧ x.extractLsb' 6 24 = 0 ∧ ((x.extractLsb' 0 6).toNat = 2 ∨ (x.extractLsb' 0 6).toNat = 5) then
      some (.wrsr g a (x.extractLsb' 0 6)) else none
  | 0x0, 0x5 => if d = 0 ∧ a = 0 ∧ b = 0 ∧ x = 0 then some (.rte g) else none
  | 0x1, 0x0 => if x = 0 then some (.add g d a b) else none
  | 0x1, 0x1 => if x = 0 then some (.sub g d a b) else none
  | 0x1, 0x2 => if x = 0 then some (.and g d a b) else none
  | 0x1, 0x3 => if x = 0 then some (.or g d a b) else none
  | 0x1, 0x4 => if x = 0 then some (.xor g d a b) else none
  | 0x1, 0x5 => if x = 0 then some (.shl g d a b) else none
  | 0x1, 0x6 => if x = 0 then some (.shr g d a b) else none
  | 0x1, 0x7 => if x = 0 then some (.sra g d a b) else none
  | 0x1, 0x8 => if x = 0 then some (.min g d a b) else none
  | 0x1, 0x9 => if x = 0 then some (.max g d a b) else none
  | 0x1, 0xa => if x = 0 then some (.minu g d a b) else none
  | 0x1, 0xb => if x = 0 then some (.maxu g d a b) else none
  | 0x1, 0xc => if x = 0 then some (.mul g d a b) else none
  | 0x1, 0xd => if x = 0 then some (.mulhu g d a b) else none
  | 0x1, 0xe => if x = 0 then some (.divu g d a b) else none
  | 0x1, 0xf => if x = 0 then some (.remu g d a b) else none
  | 0x2, 0x0 => some (.addi g d a (b ++ x))
  | 0x2, 0x2 => some (.andi g d a (b ++ x))
  | 0x2, 0x3 => some (.ori g d a (b ++ x))
  | 0x2, 0x4 => some (.xori g d a (b ++ x))
  | 0x2, 0x5 => some (.shli g d a (b ++ x))
  | 0x2, 0x6 => some (.shri g d a (b ++ x))
  | 0x2, 0x7 => some (.srai g d a (b ++ x))
  | 0x2, 0x10 => if a = 0 then some (.li g d (b ++ x)) else none
  | 0x2, 0x11 => if a = 0 ∧ (b ++ x).extractLsb' 28 8 = 0 then some (.lih g d ((b ++ x).extractLsb' 0 28)) else none
  | 0x3, 0x0 => if hi3 d = 0 ∧ x = 0 then some (.ceq g (lo3 d) a b) else none
  | 0x3, 0x1 => if hi3 d = 0 ∧ x = 0 then some (.cne g (lo3 d) a b) else none
  | 0x3, 0x2 => if hi3 d = 0 ∧ x = 0 then some (.clt g (lo3 d) a b) else none
  | 0x3, 0x3 => if hi3 d = 0 ∧ x = 0 then some (.cltu g (lo3 d) a b) else none
  | 0x3, 0x4 => if hi3 d = 0 ∧ x = 0 then some (.cle g (lo3 d) a b) else none
  | 0x3, 0x5 => if hi3 d = 0 ∧ x = 0 then some (.cleu g (lo3 d) a b) else none
  | 0x4, 0x0 => if hi3 d = 0 ∧ hi3 a = 0 ∧ hi3 b = 0 ∧ x = 0 then some (.pand g (lo3 d) (lo3 a) (lo3 b)) else none
  | 0x4, 0x1 => if hi3 d = 0 ∧ hi3 a = 0 ∧ hi3 b = 0 ∧ x = 0 then some (.por g (lo3 d) (lo3 a) (lo3 b)) else none
  | 0x4, 0x2 => if hi3 d = 0 ∧ hi3 a = 0 ∧ hi3 b = 0 ∧ x = 0 then some (.pxor g (lo3 d) (lo3 a) (lo3 b)) else none
  | 0x4, 0x3 => if hi3 d = 0 ∧ hi3 a = 0 ∧ hi3 b = 0 ∧ x = 0 then some (.pandn g (lo3 d) (lo3 a) (lo3 b)) else none
  | 0x5, 0x0 => some (.ld g d a (b ++ x))
  | 0x5, 0x1 => some (.st g d a (b ++ x))
  | 0x5, 0x2 => if d = 0 ∧ b = 0 then some (.ldt g (tOf x) a (x.extractLsb' 0 26)) else none
  | 0x5, 0x3 => if d = 0 ∧ b = 0 then some (.stt g (tOf x) a (x.extractLsb' 0 26)) else none
  | 0x5, 0x4 => if a = 0 ∧ b = 0 ∧ x.extractLsb' 2 24 = 0 then some (.tgetw g d (tOf x) (x.extractLsb' 0 2)) else none
  | 0x5, 0x5 => if d = 0 ∧ b = 0 ∧ x.extractLsb' 2 24 = 0 then some (.tsetw g (tOf x) a (x.extractLsb' 0 2)) else none
  | 0x6, 0x0 => if d = 0 ∧ a = 0 ∧ b = 0 ∧ x.extractLsb' 15 15 = 0 then some (.br g (x.extractLsb' 0 15)) else none
  | 0x6, 0x1 => if d = 0 ∧ a = 0 ∧ b = 0 ∧ x.extractLsb' 15 15 = 0 then some (.call g (x.extractLsb' 0 15)) else none
  | 0x6, 0x2 => if d = 0 ∧ a = 0 ∧ b = 0 ∧ x = 0 then some (.ret g) else none
  | 0x10, 0x0 => if d = 0 ∧ a = 0 ∧ b = 0 ∧ x.extractLsb' 0 26 = 0 then some (.mkent g (tOf x)) else none
  | 0x10, 0x1 => if d = 0 ∧ a = 0 ∧ b = 0 ∧ x.extractLsb' 0 26 = 0 then some (.mkdrop g (tOf x)) else none
  | 0x10, 0x2 => if d = 0 ∧ x.extractLsb' 3 27 = 0 ∧ (x.extractLsb' 0 3).toNat < 5 then some (.dset g a b (x.extractLsb' 0 3)) else none
  | 0x10, 0x3 => if b = 0 ∧ x.extractLsb' 2 28 = 0 then some (.drd g d a (x.extractLsb' 0 2)) else none
  | 0x10, 0x4 => if hi3 d = 0 ∧ b = 0 ∧ x = 0 then some (.spill g (lo3 d) a) else none
  | 0x10, 0x5 => if d = 0 ∧ b = 0 ∧ x = 0 then some (.recall g a) else none
  | 0x10, 0x6 => if d = 0 ∧ b = 0 ∧ x = 0 then some (.drop g a) else none
  | 0x10, 0x7 => if d = 0 ∧ b = 0 ∧ x = 0 then some (.rel g a) else none
  | 0x11, 0x0 => if d = 0 ∧ b = 0 ∧ x.extractLsb' 0 26 = 0 then some (.stin g (tOf x) a) else none
  | 0x11, 0x1 => if d = 0 ∧ b = 0 ∧ x.extractLsb' 0 26 = 0 then some (.stout g (tOf x) a) else none
  | 0x11, 0x2 => if d = 0 ∧ b = 0 ∧ x.extractLsb' 0 26 = 0 then some (.cop g (tOf x) a) else none
  | 0x11, 0x3 => if d = 0 ∧ b = 0 ∧ x.extractLsb' 0 26 = 0 then some (.upd g (tOf x) a) else none
  | 0x12, 0x0 => if a = 0 ∧ b = 0 ∧ x.extractLsb' 0 26 = 0 then some (.tkt g d (tOf x)) else none
  | 0x12, 0x1 => if d = 0 ∧ b = 0 ∧ x = 0 then some (.tkw g a) else none
  | 0x12, 0x2 => if d = 0 ∧ x.extractLsb' 1 29 = 0 then some (.sacq g a b (x.extractLsb' 0 1)) else none
  | 0x12, 0x3 => if d = 0 ∧ x.extractLsb' 1 29 = 0 then some (.srel g a b (x.extractLsb' 0 1)) else none
  | 0x13, 0x0 => if d = 0 ∧ a = 0 ∧ b = 0 ∧ x.extractLsb' 2 28 = 0 then some (.fence g (x.extractLsb' 0 2)) else none
  | 0x13, 0x1 => if d = 0 ∧ a = 0 ∧ b = 0 ∧ x = 0 then some (.lfence g) else none
  | 0x13, 0x2 => if d = 0 ∧ x = 0 then some (.hmv g a b) else none
  | 0x13, 0x3 => if hi3 d = 0 ∧ b = 0 ∧ x = 0 then some (.hwt g (lo3 d) a) else none
  | 0x14, 0x0 => if d = 0 ∧ a = 0 ∧ b = 0 ∧ x = 0 then some (.epbeg g) else none
  | 0x14, 0x1 => if hi3 d = 0 ∧ a = 0 ∧ b = 0 ∧ x = 0 then some (.eprdy g (lo3 d)) else none
  | 0x14, 0x2 => if d = 0 ∧ a = 0 ∧ b = 0 ∧ x = 0 then some (.epcmt g) else none
  | 0x14, 0x3 => if d = 0 ∧ a = 0 ∧ b = 0 ∧ x = 0 then some (.eprb g) else none
  | 0x14, 0x4 => if d = 0 ∧ a = 0 ∧ b = 0 ∧ x = 0 then some (.snap g) else none
  | _, _ => none

/-- Decodes an instruction word; none where it is illegal (R83). -/
def sepDecode (w : Word) : Option Instr :=
  sepDecodeFields (w.extractLsb' 58 6).toNat (w.extractLsb' 52 6).toNat
    { pn := w.getLsbD 51, pr := w.extractLsb' 48 3 } (w.extractLsb' 42 6) (w.extractLsb' 36 6)
    (w.extractLsb' 30 6) (w.extractLsb' 0 30)

/-- A word from its fields (the format tables of chapter 04). -/
def sepWord (op fn : BitVec 6) (g : Guard) (d a b : BitVec 6) (x : BitVec 30) : Word :=
  op ++ fn ++ (BitVec.ofBool g.pn) ++ g.pr ++ d ++ a ++ b ++ x

/-- The word of a separator instruction; none for the other commands (R88). -/
def sepEncode : Instr → Option Word
  | .nop g => some (sepWord 0x0 0x0 g 0 0 0 0)
  | .halt g => some (sepWord 0x0 0x1 g 0 0 0 0)
  | .trap g imm => some (sepWord 0x0 0x2 g 0 0 (immHi imm) (immLo imm))
  | .rdsr g d idx => some (sepWord 0x0 0x3 g d 0 0 (idx.setWidth 30))
  | .wrsr g a idx => some (sepWord 0x0 0x4 g 0 a 0 (idx.setWidth 30))
  | .rte g => some (sepWord 0x0 0x5 g 0 0 0 0)
  | .add g d a b => some (sepWord 0x1 0x0 g d a b 0)
  | .sub g d a b => some (sepWord 0x1 0x1 g d a b 0)
  | .and g d a b => some (sepWord 0x1 0x2 g d a b 0)
  | .or g d a b => some (sepWord 0x1 0x3 g d a b 0)
  | .xor g d a b => some (sepWord 0x1 0x4 g d a b 0)
  | .shl g d a b => some (sepWord 0x1 0x5 g d a b 0)
  | .shr g d a b => some (sepWord 0x1 0x6 g d a b 0)
  | .sra g d a b => some (sepWord 0x1 0x7 g d a b 0)
  | .min g d a b => some (sepWord 0x1 0x8 g d a b 0)
  | .max g d a b => some (sepWord 0x1 0x9 g d a b 0)
  | .minu g d a b => some (sepWord 0x1 0xa g d a b 0)
  | .maxu g d a b => some (sepWord 0x1 0xb g d a b 0)
  | .mul g d a b => some (sepWord 0x1 0xc g d a b 0)
  | .mulhu g d a b => some (sepWord 0x1 0xd g d a b 0)
  | .divu g d a b => some (sepWord 0x1 0xe g d a b 0)
  | .remu g d a b => some (sepWord 0x1 0xf g d a b 0)
  | .addi g d a imm => some (sepWord 0x2 0x0 g d a (immHi imm) (immLo imm))
  | .andi g d a imm => some (sepWord 0x2 0x2 g d a (immHi imm) (immLo imm))
  | .ori g d a imm => some (sepWord 0x2 0x3 g d a (immHi imm) (immLo imm))
  | .xori g d a imm => some (sepWord 0x2 0x4 g d a (immHi imm) (immLo imm))
  | .shli g d a imm => some (sepWord 0x2 0x5 g d a (immHi imm) (immLo imm))
  | .shri g d a imm => some (sepWord 0x2 0x6 g d a (immHi imm) (immLo imm))
  | .srai g d a imm => some (sepWord 0x2 0x7 g d a (immHi imm) (immLo imm))
  | .li g d imm => some (sepWord 0x2 0x10 g d 0 (immHi imm) (immLo imm))
  | .lih g d imm => some (sepWord 0x2 0x11 g d 0 0 (imm.setWidth 30))
  | .ceq g pd a b => some (sepWord 0x3 0x0 g (p6 pd) a b 0)
  | .cne g pd a b => some (sepWord 0x3 0x1 g (p6 pd) a b 0)
  | .clt g pd a b => some (sepWord 0x3 0x2 g (p6 pd) a b 0)
  | .cltu g pd a b => some (sepWord 0x3 0x3 g (p6 pd) a b 0)
  | .cle g pd a b => some (sepWord 0x3 0x4 g (p6 pd) a b 0)
  | .cleu g pd a b => some (sepWord 0x3 0x5 g (p6 pd) a b 0)
  | .pand g pd pa pb => some (sepWord 0x4 0x0 g (p6 pd) (p6 pa) (p6 pb) 0)
  | .por g pd pa pb => some (sepWord 0x4 0x1 g (p6 pd) (p6 pa) (p6 pb) 0)
  | .pxor g pd pa pb => some (sepWord 0x4 0x2 g (p6 pd) (p6 pa) (p6 pb) 0)
  | .pandn g pd pa pb => some (sepWord 0x4 0x3 g (p6 pd) (p6 pa) (p6 pb) 0)
  | .ld g d a imm => some (sepWord 0x5 0x0 g d a (immHi imm) (immLo imm))
  | .st g d a imm => some (sepWord 0x5 0x1 g d a (immHi imm) (immLo imm))
  | .ldt g t a imm => some (sepWord 0x5 0x2 g 0 a 0 (t ++ imm))
  | .stt g t a imm => some (sepWord 0x5 0x3 g 0 a 0 (t ++ imm))
  | .tgetw g d t w => some (sepWord 0x5 0x4 g d 0 0 (t ++ w.setWidth 26))
  | .tsetw g t a w => some (sepWord 0x5 0x5 g 0 a 0 (t ++ w.setWidth 26))
  | .br g tgt => some (sepWord 0x6 0x0 g 0 0 0 (tgt.setWidth 30))
  | .call g tgt => some (sepWord 0x6 0x1 g 0 0 0 (tgt.setWidth 30))
  | .ret g => some (sepWord 0x6 0x2 g 0 0 0 0)
  | .mkent g t => some (sepWord 0x10 0x0 g 0 0 0 (t ++ (0 : BitVec 26)))
  | .mkdrop g t => some (sepWord 0x10 0x1 g 0 0 0 (t ++ (0 : BitVec 26)))
  | .dset g a b x => some (sepWord 0x10 0x2 g 0 a b (x.setWidth 30))
  | .drd g d a x => some (sepWord 0x10 0x3 g d a 0 (x.setWidth 30))
  | .spill g pd a => some (sepWord 0x10 0x4 g (p6 pd) a 0 0)
  | .recall g a => some (sepWord 0x10 0x5 g 0 a 0 0)
  | .drop g a => some (sepWord 0x10 0x6 g 0 a 0 0)
  | .rel g a => some (sepWord 0x10 0x7 g 0 a 0 0)
  | .stin g t a => some (sepWord 0x11 0x0 g 0 a 0 (t ++ (0 : BitVec 26)))
  | .stout g t a => some (sepWord 0x11 0x1 g 0 a 0 (t ++ (0 : BitVec 26)))
  | .cop g t a => some (sepWord 0x11 0x2 g 0 a 0 (t ++ (0 : BitVec 26)))
  | .upd g t a => some (sepWord 0x11 0x3 g 0 a 0 (t ++ (0 : BitVec 26)))
  | .tkt g d t => some (sepWord 0x12 0x0 g d 0 0 (t ++ (0 : BitVec 26)))
  | .tkw g a => some (sepWord 0x12 0x1 g 0 a 0 0)
  | .sacq g a b side => some (sepWord 0x12 0x2 g 0 a b (side.setWidth 30))
  | .srel g a b side => some (sepWord 0x12 0x3 g 0 a b (side.setWidth 30))
  | .fence g scope => some (sepWord 0x13 0x0 g 0 0 0 (scope.setWidth 30))
  | .lfence g => some (sepWord 0x13 0x1 g 0 0 0 0)
  | .hmv g a b => some (sepWord 0x13 0x2 g 0 a b 0)
  | .hwt g pd a => some (sepWord 0x13 0x3 g (p6 pd) a 0 0)
  | .epbeg g => some (sepWord 0x14 0x0 g 0 0 0 0)
  | .eprdy g pd => some (sepWord 0x14 0x1 g (p6 pd) 0 0 0)
  | .epcmt g => some (sepWord 0x14 0x2 g 0 0 0 0)
  | .eprb g => some (sepWord 0x14 0x3 g 0 0 0 0)
  | .snap g => some (sepWord 0x14 0x4 g 0 0 0 0)
  | _ => none

/-- The command a word spells by the table's bits: no row of the table gives bits, so there is none. -/
def decodeTableWord (nbits w : Nat) : Option Instr :=
  let _ := (nbits, w)
  none

end Sys2Proof
end

