-- ==== Sys2Proof/Machine/Bits.lean ====
section
/-! DEFINITION. Bit fields, sign extension, saturating fields and little-endian bytes (R5). -/

namespace Sys2Proof.Machine

/-- Bits `hi` to `lo` of a word, as a number. -/
def fld {n : Nat} (w : BitVec n) (hi lo : Nat) : Nat := (w.toNat >>> lo) % 2 ^ (hi + 1 - lo)

/-- Bit `i` of a word. -/
def bit {n : Nat} (w : BitVec n) (i : Nat) : Bool := w.getLsbD i

/-- A Boolean as a bit. -/
def b1 (b : Bool) : Nat := if b then 1 else 0

/-- `w` with bits `hi` to `lo` replaced by the low bits of `v`. -/
def setFld (w : Word) (hi lo v : Nat) : Word :=
  BitVec.ofNat 64 (w.toNat - (fld w hi lo) * 2 ^ lo + (v % 2 ^ (hi + 1 - lo)) * 2 ^ lo)

/-- A word from the values of its fields, each given with its lowest bit. -/
def pack (l : List (Nat × Nat)) : Word :=
  BitVec.ofNat 64 (l.foldl (fun a x => a + x.2 * 2 ^ x.1) 0)

/-- The mask of bits `hi` to `lo`. -/
def maskOf (hi lo : Nat) : Word := BitVec.ofNat 64 ((2 ^ (hi + 1 - lo) - 1) * 2 ^ lo)

/-- Adds `k` to bits `hi` to `lo` of a word, saturating at all ones. -/
def satFld (w : Word) (hi lo k : Nat) : Word :=
  setFld w hi lo (min (fld w hi lo + k) (2 ^ (hi + 1 - lo) - 1))

/-- Adds `k`, saturating at all ones. -/
def satAdd {n : Nat} (x : BitVec n) (k : Nat) : BitVec n := BitVec.ofNat n (min (x.toNat + k) (2 ^ n - 1))

/-- The `n` low bytes of a number, lowest first. -/
def toBytes : Nat → Nat → List Byte
  | 0, _ => []
  | n + 1, v => BitVec.ofNat 8 v :: toBytes n (v / 256)

/-- The number that bytes spell, lowest first. -/
def ofBytes : List Byte → Nat
  | [] => 0
  | b :: r => b.toNat + 256 * ofBytes r

/-- The eight bytes of a word. -/
def wordBytes (w : Word) : List Byte := toBytes 8 w.toNat

/-- The bytes of a list of words. -/
def wordsBytes (l : List Word) : List Byte := l.flatMap wordBytes

/-- The words that bytes spell, eight bytes each; `k` words. -/
def bytesWords : Nat → List Byte → List Word
  | 0, _ => []
  | k + 1, l => BitVec.ofNat 64 (ofBytes (l.take 8)) :: bytesWords k (l.drop 8)

/-- Zero bytes. -/
def zeros (n : Nat) : List Byte := List.replicate n 0

/-- Bytes padded with zeros to length `n`. -/
def padTo (n : Nat) (l : List Byte) : List Byte := l ++ zeros (n - l.length)

/-- Whether every byte is zero. -/
def allZero (l : List Byte) : Bool := l.all fun b => b == 0

/-- Integer division rounding up. -/
def cdiv (a b : Nat) : Nat := (a + b - 1) / b

/-- The largest k with 2^k at most `n`; 0 for 0. -/
def flog2 (n : Nat) : Nat := Nat.log2 n

/-- The number of ones among the low `k` bits of `m`. -/
def popcount (m : Nat) : Nat → Nat
  | 0 => 0
  | k + 1 => (m >>> k) % 2 + popcount m k

/-- Word `i` of a list, 0 outside it. -/
def nth (l : List Word) (i : Nat) : Word := l.getD i 0

end Sys2Proof.Machine
end

