-- ==== Sys2Proof/Machine/Maps.lean ====
section
/-! DEFINITION. Sparse maps in canonical form: keys strictly rising, and no entry that holds the default. -/

namespace Sys2Proof.Machine

/-- The value at key `k`; `d` where nothing is listed. -/
def mget {α : Type} (d : α) : SMap α → Nat → α
  | [], _ => d
  | (k', v) :: r, k => if k' = k then v else mget d r k

/-- Writes `v` at key `k`, keeping the canonical form for the default `d`. -/
def mset {α : Type} [DecidableEq α] (d : α) : SMap α → Nat → α → SMap α
  | [], k, v => if v = d then [] else [(k, v)]
  | (k', v') :: r, k, v =>
    if k < k' then (if v = d then (k', v') :: r else (k, v) :: (k', v') :: r)
    else if k = k' then (if v = d then r else (k, v) :: r)
    else (k', v') :: mset d r k v

/-- Every key is at least `b`, the keys rise strictly, and no entry holds the default. -/
def mwfFrom {α : Type} [DecidableEq α] (d : α) : Nat → SMap α → Bool
  | _, [] => true
  | b, (k, v) :: r => decide (b ≤ k) && decide (v ≠ d) && mwfFrom d (k + 1) r

/-- The canonical form. -/
def mwf {α : Type} [DecidableEq α] (d : α) (m : SMap α) : Bool := mwfFrom d 0 m

/-- Removes key `k`. -/
def mdel {α : Type} : SMap α → Nat → SMap α
  | [], _ => []
  | (k', v) :: r, k => if k' = k then r else (k', v) :: mdel r k

/-- Applies `f` to every listed value, dropping those that become the default. -/
def mmap {α : Type} [DecidableEq α] (d : α) (f : Nat → α → α) : SMap α → SMap α
  | [] => []
  | (k, v) :: r => if f k v = d then mmap d f r else (k, f k v) :: mmap d f r

/-- Whether some listed entry satisfies `p`. -/
def many {α : Type} (p : Nat → α → Bool) (m : SMap α) : Bool := m.any fun x => p x.1 x.2

/-- The least key, from `b` on, that is not listed. -/
def mfree {α : Type} (b : Nat) : SMap α → Nat
  | [] => b
  | (k, _) :: r => if k < b then mfree b r else if k = b then mfree (b + 1) r else b

/-- Writes one element of a vector, leaving the vector as it is when the index is outside it. -/
def vset {α : Type} {n : Nat} (v : Vector α n) (i : Nat) (x : α) : Vector α n := v.setIfInBounds i x

/-- Reads one element of a vector; `d` outside it. -/
def vget {α : Type} {n : Nat} (d : α) (v : Vector α n) (i : Nat) : α := v.getD i d

/-- Replaces the first element that satisfies `p`. -/
def lmod {α : Type} (p : α → Bool) (f : α → α) : List α → List α
  | [] => []
  | x :: r => if p x then f x :: r else x :: lmod p f r

/-- Repeats `f` `n` times. -/
def iter {α : Type} (f : α → α) : Nat → α → α
  | 0, x => x
  | n + 1, x => iter f n (f x)

end Sys2Proof.Machine
end

