-- ==== Sys2Proof/Machine/Draw.lean ====
section
/-! DEFINITION. Counter-based draws (R189 to R192) and the checksum CRC-32C. -/

namespace Sys2Proof.Machine

/-- The rotations of R192, a pair for each round. -/
def drawRot : List (Nat × Nat) :=
  [(7, 21), (19, 10), (11, 28), (27, 4), (5, 16), (22, 12), (14, 30), (9, 18), (25, 8), (3, 23)]

/-- Rounds `i` onward of R192 on x0 to x3, with the key words ks. -/
def drawRounds (k0 k1 k2 : BitVec 32) :
    Nat → List (Nat × Nat) → BitVec 32 → BitVec 32 → BitVec 32 → BitVec 32 → BitVec 64
  | _, [], x0, x1, x2, x3 => (x0 ^^^ x2) ++ (x1 ^^^ x3)
  | i, (ra, rb) :: r, x0, x1, x2, x3 =>
    let a0 := x0 + x1
    let a1 := (x1.rotateLeft ra) ^^^ a0
    let a2 := x2 + x3
    let a3 := (x3.rotateLeft rb) ^^^ a2
    if i % 2 = 1 then
      let j := i / 2 + 1
      let ks (m : Nat) : BitVec 32 := if m % 3 = 0 then k0 else if m % 3 = 1 then k1 else k2
      drawRounds k0 k1 k2 (i + 1) r (a0 + ks j) (a3 + ks (j + 1)) (a2 + ks (j + 2))
        (a1 + ks j + BitVec.ofNat 32 j)
    else drawRounds k0 k1 k2 (i + 1) r a0 a3 a2 a1

/-- The draw of R192 for a key and a 128-bit counter. -/
def draw (key : Word) (ctr : BitVec 128) : BitVec 64 :=
  let k0 := key.extractLsb' 0 32
  let k1 := key.extractLsb' 32 32
  let k2 := k0 ^^^ k1 ^^^ 0x5A3C96E1#32
  drawRounds k0 k1 k2 0 drawRot (ctr.extractLsb' 0 32 + k0) (ctr.extractLsb' 32 32 + k1)
    (ctr.extractLsb' 64 32 + k2) (ctr.extractLsb' 96 32 + k0)

/-- The counter that packs a draw address (R189). -/
def drawCtr (step stream tile elem : Nat) : BitVec 128 :=
  BitVec.ofNat 128 ((step % 2 ^ 48) <<< 80 + (stream % 2 ^ 24) <<< 56 + (tile % 2 ^ 40) <<< 16 + elem % 2 ^ 16)

/-- Where the draws of one tile come from: key, step, stream and tile (R160). -/
structure DrawAddr where
  key : Word
  step : Nat
  stream : Nat
  tile : Nat
deriving DecidableEq, Repr

/-- The 16 draw bits of element `e` (R160). -/
def drawBits (a : DrawAddr) (e : Nat) : Nat :=
  fld (draw a.key (drawCtr a.step a.stream a.tile (e / 4))) (16 * (e % 4) + 15) (16 * (e % 4))

/-- One bit step of CRC-32C, reflected. -/
def crcBit (c : BitVec 32) : BitVec 32 :=
  if c.getLsbD 0 then (c >>> 1) ^^^ 0x82F63B78#32 else c >>> 1

/-- CRC-32C of bytes (R206, R327, R345). -/
def crc32c (l : List Byte) : BitVec 32 :=
  (l.foldl (fun c b => iter crcBit 8 (c ^^^ b.setWidth 32)) 0xFFFFFFFF#32) ^^^ 0xFFFFFFFF#32

end Sys2Proof.Machine
end

