-- ==== Sys2Proof/Machine/Num.lean ====
section
/-! DEFINITION. Exact numbers, binary32 lane arithmetic (R172), the W80 accumulator (R174) and stochastic rounding (R159). -/

namespace Sys2Proof.Machine

/-- A number a format can hold: finite values are (-1)^neg × m × 2^e. -/
inductive Fp where
  | nan (neg : Bool)
  | inf (neg : Bool)
  | fin (neg : Bool) (m : Nat) (e : Int)
deriving DecidableEq, Repr

/-- Decodes an IEEE-shaped code with `eb` exponent bits, `mb` fraction bits and the given bias; the
all-ones exponent marks Inf and NaN when `special` holds. -/
def decodeF (eb mb : Nat) (bias : Int) (special : Bool) (c : Nat) : Fp :=
  let neg := (c >>> (eb + mb)) % 2 = 1
  let f := (c >>> mb) % 2 ^ eb
  let m := c % 2 ^ mb
  if special && f = 2 ^ eb - 1 then (if m = 0 then .inf neg else .nan neg)
  else if f = 0 then .fin neg m (1 - bias - mb)
  else .fin neg (m + 2 ^ mb) ((f : Int) - bias - mb)

/-- The value of a binary32 code. -/
def f32 (x : BitVec 32) : Fp := decodeF 8 23 127 true x.toNat

/-- The quiet NaN of R172. -/
def qnan : BitVec 32 := 0x7FC00000#32

/-- The largest finite binary32 value, with a sign. -/
def maxF32 (neg : Bool) : BitVec 32 := if neg then 0xFF7FFFFF#32 else 0x7F7FFFFF#32

/-- Rounds m × 2^e to a multiple of 2^u, to nearest with ties to even. `sticky` says that the exact
value lies strictly between m and m + 1 units of 2^e. -/
def rneK (m : Nat) (e u : Int) (sticky : Bool) : Nat :=
  if u ≤ e then m <<< (e - u).toNat
  else
    let s := (u - e).toNat
    let k := m >>> s
    let r := m % 2 ^ s
    let h := 2 ^ (s - 1)
    if r > h || (r = h && (sticky || k % 2 = 1)) then k + 1 else k

/-- Encodes k × 2^u, k at most 2^24, as the bits of a binary32 magnitude; the flag says that it lies
above the largest finite value. -/
def packF32 (neg : Bool) (k : Nat) (u : Int) : BitVec 32 × Bool :=
  let s := if neg then 2 ^ 31 else 0
  if k = 0 then (BitVec.ofNat 32 s, false)
  else if k < 2 ^ 23 then (BitVec.ofNat 32 (s + k), false)
  else
    let (k, u) := if k = 2 ^ 24 then (2 ^ 23, u + 1) else (k, u)
    let ef := u + 23 + 127
    if ef ≥ 255 then (maxF32 neg, true)
    else (BitVec.ofNat 32 (s + ef.toNat * 2 ^ 23 + (k - 2 ^ 23)), false)

/-- Rounds an exact value to binary32, to nearest with ties to even, clamped under R172. -/
def roundF32 (neg : Bool) (m : Nat) (e : Int) (sticky : Bool := false) : BitVec 32 × Bool :=
  if m = 0 then (if neg then 0x80000000#32 else 0, false)
  else
    let u := max ((flog2 m : Int) + e) (-126) - 23
    packF32 neg (rneK m e u sticky) u

/-- A lane result: the value, and the overflow and non-finite flags it sets (R172). -/
structure Ln where
  v : BitVec 32
  ovf : Bool := false
  nf : Bool := false
deriving DecidableEq, Repr

/-- A lane value that sets no flag. -/
def Ln.pure (x : BitVec 32) : Ln := { v := x }

/-- Uses a lane result in a further operation; the flags gather. -/
def Ln.bind (x : Ln) (f : BitVec 32 → Ln) : Ln :=
  let y := f x.v
  { v := y.v, ovf := x.ovf || y.ovf, nf := x.nf || y.nf }

/-- The NaN result of an invalid operation or of a non-finite input (R172). -/
def lnNan : Ln := { v := qnan, nf := true }

/-- The result of rounding an exact finite value in a lane. -/
def lnRound (neg : Bool) (m : Nat) (e : Int) (sticky : Bool := false) : Ln :=
  let r := roundF32 neg m e sticky
  { v := r.1, ovf := r.2 }

/-- The exact sum of two finite values: sign, magnitude, exponent. Opposite equal values give +0. -/
def exAdd (n1 : Bool) (m1 : Nat) (e1 : Int) (n2 : Bool) (m2 : Nat) (e2 : Int) : Bool × Nat × Int :=
  let e := min e1 e2
  let a := m1 <<< (e1 - e).toNat
  let b := m2 <<< (e2 - e).toNat
  if n1 = n2 then (n1, a + b, e)
  else if a = b then (false, 0, e)
  else if a > b then (n1, a - b, e) else (n2, b - a, e)

/-- binary32 addition in a lane. -/
def addL (x y : BitVec 32) : Ln :=
  match f32 x, f32 y with
  | .fin n1 m1 e1, .fin n2 m2 e2 => let r := exAdd n1 m1 e1 n2 m2 e2; lnRound r.1 r.2.1 r.2.2
  | _, _ => lnNan

/-- A binary32 value with its sign changed. -/
def negF (x : BitVec 32) : BitVec 32 := x ^^^ 0x80000000#32

/-- binary32 subtraction in a lane. -/
def subL (x y : BitVec 32) : Ln := addL x (negF y)

/-- binary32 multiplication in a lane. -/
def mulL (x y : BitVec 32) : Ln :=
  match f32 x, f32 y with
  | .fin n1 m1 e1, .fin n2 m2 e2 => lnRound (n1 != n2) (m1 * m2) (e1 + e2)
  | _, _ => lnNan

/-- The fused multiply-add x × y + z, rounded once (R172). -/
def fmaL (x y z : BitVec 32) : Ln :=
  match f32 x, f32 y, f32 z with
  | .fin n1 m1 e1, .fin n2 m2 e2, .fin n3 m3 e3 =>
    let r := exAdd (n1 != n2) (m1 * m2) (e1 + e2) n3 m3 e3; lnRound r.1 r.2.1 r.2.2
  | _, _, _ => lnNan

/-- An integer rounded to binary32 (R185). -/
def intL (neg : Bool) (n : Nat) : Ln := lnRound neg n 0

/-- Whether a binary32 value is not finite. -/
def nonFin (x : BitVec 32) : Bool := match f32 x with | .fin .. => false | _ => true

/-- Whether a binary32 value is a zero of either sign. -/
def isZeroF (x : BitVec 32) : Bool := x &&& 0x7FFFFFFF#32 == 0

/-- The sign bit. -/
def negOf (x : BitVec 32) : Bool := x.getLsbD 31

/-- The order of two finite binary32 values: x < y. -/
def ltF (x y : BitVec 32) : Bool :=
  match f32 x, f32 y with
  | .fin n1 m1 e1, .fin n2 m2 e2 =>
    let r := exAdd n1 m1 e1 (!n2) m2 e2
    r.1 && r.2.1 ≠ 0
  | _, _ => false

/-- The numerical minimum of two finite values. -/
def minF (x y : BitVec 32) : BitVec 32 := if ltF y x then y else x

/-- The numerical maximum of two finite values. -/
def maxF (x y : BitVec 32) : BitVec 32 := if ltF x y then y else x

/-- Rounds to the 64-bit significand of W80, to nearest with ties to even (R174). -/
def w80round (neg : Bool) (m : Nat) (e : Int) (sticky : Bool := false) : Fp :=
  if m = 0 then .fin neg 0 0
  else
    let u := max ((flog2 m : Int) + e - 63) (-16446)
    let k := rneK m e u sticky
    let (k, u) := if k = 2 ^ 64 then (2 ^ 63, u + 1) else (k, u)
    if u > 16320 then .inf neg else .fin neg k u

/-- The 80 bits of a W80 value (R174). -/
def w80bits : Fp → BitVec 80
  | .nan n => BitVec.ofNat 80 (b1 n * 2 ^ 79 + 0x7FFF * 2 ^ 64 + 2 ^ 63)
  | .inf n => BitVec.ofNat 80 (b1 n * 2 ^ 79 + 0x7FFF * 2 ^ 64)
  | .fin n m e =>
    if m = 0 then BitVec.ofNat 80 (b1 n * 2 ^ 79)
    else
      let m' := if flog2 m ≤ 63 then m <<< (63 - flog2 m) else m
      let e' := e - (63 - (flog2 m : Int))
      if e' + 16446 ≤ 0 then BitVec.ofNat 80 (b1 n * 2 ^ 79 + m * 2 ^ (e + 16446).toNat)
      else BitVec.ofNat 80 (b1 n * 2 ^ 79 + (e' + 16446).toNat * 2 ^ 64 + m')

/-- The value of 80 bits laid out as R174 gives. -/
def w80val (b : BitVec 80) : Fp :=
  let n := b.getLsbD 79
  let e := fld b 78 64
  let m := fld b 63 0
  if e = 0x7FFF then (if m = 0 then .inf n else .nan n) else .fin n m ((e : Int) - 16446)

/-- w80_add (R174). -/
def wadd : Fp → Fp → Fp
  | .fin n1 m1 e1, .fin n2 m2 e2 =>
    let r := exAdd n1 m1 e1 n2 m2 e2
    w80round r.1 r.2.1 r.2.2
  | _, _ => .nan false

/-- The negation of a value. -/
def fneg : Fp → Fp
  | .nan n => .nan n
  | .inf n => .inf (!n)
  | .fin n m e => .fin (!n) m e

/-- w80_sub (R174). -/
def wsub (x y : Fp) : Fp := wadd x (fneg y)

/-- w80_mul (R174). -/
def wmul : Fp → Fp → Fp
  | .fin n1 m1 e1, .fin n2 m2 e2 => w80round (n1 != n2) (m1 * m2) (e1 + e2)
  | _, _ => .nan false

/-- w80_div (R174). Division by zero does not occur in this manual; it gives NaN. -/
def wdiv : Fp → Fp → Fp
  | .fin n1 m1 e1, .fin n2 m2 e2 =>
    if m2 = 0 then .nan false
    else
      let s := 140 + flog2 m2
      let a := m1 <<< s
      w80round (n1 != n2) (a / m2) (e1 - e2 - s) (a % m2 ≠ 0)
  | _, _ => .nan false

/-- The exact product of two values, not yet rounded (R175: exact products and squares). -/
def exMul : Fp → Fp → Fp
  | .fin n1 m1 e1, .fin n2 m2 e2 => .fin (n1 != n2) (m1 * m2) (e1 + e2)
  | _, _ => .nan false

/-- rne32: W80 to binary32, with the clamp of R172 (R174). -/
def rne32 : Fp → Ln
  | .fin n m e => lnRound n m e
  | _ => lnNan

/-- 1 ÷ √a rounded once to binary32; for 0 the largest finite value with the overflow flag (R178). -/
def rsqrtRn32 : Fp → Ln
  | .fin n m e =>
    if m = 0 then { v := maxF32 false, ovf := true }
    else if n then lnNan
    else
      -- 1 / sqrt(m 2^e) = sqrt(2^(2s) / (m 2^p)) 2^(-s - (e - p) / 2), p making e - p even
      let p := (e % 2).toNat
      let mm := m <<< p
      let s := 100 + flog2 mm
      let q := 2 ^ (2 * s) / mm
      let r := Nat.sqrt q
      lnRound false r (-(s : Int) - (e - p) / 2) (r * r ≠ q || 2 ^ (2 * s) % mm ≠ 0)
  | _ => lnNan

/-- The rounding step of R159: m × 2^q to a multiple of 2^u with 16 draw bits. -/
def srStep (m : Nat) (q u : Int) (d : Nat) : Nat :=
  if u ≤ q then m <<< (q - u).toNat
  else
    let s := (u - q).toNat
    if s > 63 then (if d < (if m ≥ 2 ^ 63 then 0xFFFF else 1) then 1 else 0)
    else
      let k := m >>> s
      let rem := m - k <<< s
      let t := if s ≥ 16 then rem >>> (s - 16) else rem <<< (16 - s)
      if d < t then k + 1 else k

end Sys2Proof.Machine
end

