-- ==== Sys2Proof/Machine/Sfu.lean ====
section
/-! DEFINITION. Special functions: tables, evaluation and the checks of a loaded image (R197 to R212). -/

namespace Sys2Proof.Machine

/-- Segments of a table (R199). -/
def tabN (tid : Nat) : Nat := match tid with | 3 | 4 | 5 => 512 | 6 => 1024 | _ => 256

/-- Words of a table's image (R199). -/
def tabWords (tid : Nat) : Nat := 2 * tabN tid

/-- The table a function reads; none for a reserved number (R197). -/
def funcTab (fn : Nat) : Option Nat :=
  match fn with
  | 1 | 2 => some 0
  | 3 | 4 => some 1
  | 5 => some 2
  | 6 => some 3
  | 7 | 8 => some 4
  | 9 => some 5
  | 10 => some 6
  | 11 | 12 => some 7
  | _ => none

/-- C0, C1, C2 and END of segment `i` (R199). -/
def tabEntry (img : List Word) (i : Nat) : BitVec 32 × BitVec 32 × BitVec 32 × BitVec 32 :=
  let a := nth img (2 * i)
  let b := nth img (2 * i + 1)
  (a.extractLsb' 0 32, a.extractLsb' 32 32, b.extractLsb' 0 32, b.extractLsb' 32 32)

/-- tab_eval (R200); `compat` selects the form of R212. -/
def tabEval (compat : Bool) (img : List Word) (i : Nat) (t : BitVec 32) : Ln :=
  let (c0, c1, c2, en) := tabEntry img i
  if compat then (mulL t c2).bind fun a => (addL c1 a).bind fun b => (mulL t b).bind fun c => addL c0 c
  else
    (fmaL c2 t c1).bind fun a => (fmaL a t c0).bind fun y =>
      .pure (minF (maxF y (minF c0 en)) (maxF c0 en))

/-- scale (R201): y × 2^k. -/
def scaleL (y : BitVec 32) (k : Int) : Ln :=
  match f32 y with
  | .fin n m e => lnRound n m (e + k)
  | _ => lnNan

/-- floor of ±m × 2^e, and what is left over it as r × 2^-d. -/
def floorFrac (neg : Bool) (m : Nat) (e : Int) : Int × Nat × Nat :=
  if e ≥ 0 then let v : Int := (m <<< e.toNat : Nat); (if neg then -v else v, 0, 0)
  else
    let d := (-e).toNat
    let q : Int := (m >>> d : Nat)
    let r := m % 2 ^ d
    if neg then (if r = 0 then (-q, 0, d) else (-q - 1, 2 ^ d - r, d)) else (q, r, d)

/-- The segment and the offset of 2^s × v, v in the table's range. -/
def segOff (neg : Bool) (m : Nat) (e s : Int) : Int × BitVec 32 :=
  let r := floorFrac neg m (e + s)
  (r.1, (lnRound false r.2.1 (-(r.2.2 : Int))).v)

/-- A magnitude normalised to 24 bits, with the exponent of its leading 1 (R201). -/
def normF (m : Nat) (e : Int) : Nat × Int := (m <<< (23 - flog2 m), (flog2 m : Int) + e)

/-- Segment and offset of a normalised mantissa (R201). -/
def mantSeg (m : Nat) : Nat × BitVec 32 := ((m - 2 ^ 23) / 2 ^ 15, (lnRound false (m % 2 ^ 15) (-15)).v)

/-- The flush of R202: a finite result below 2^k becomes a zero of its sign. -/
def flushF (k : Int) (x : Ln) : Ln :=
  match f32 x.v with
  | .fin n m e => if m ≠ 0 && (flog2 m : Int) + e < k then { x with v := if n then 0x80000000#32 else 0 } else x
  | _ => x

/-- EXP2 before the flush (R201). -/
def exp2L (compat : Bool) (img : List Word) (x : BitVec 32) : Ln :=
  match f32 x with
  | .fin n m e =>
    let r := floorFrac n m e
    if r.1 ≥ 128 then { v := maxF32 false, ovf := true }
    else if r.1 < -126 then .pure 0
    else
      let s := segOff false r.2.1 (-(r.2.2 : Int)) 8
      (tabEval compat img s.1.toNat s.2).bind fun t => scaleL t r.1
  | _ => lnNan

/-- LOG2 before the flush (R201). -/
def log2L (compat : Bool) (img : List Word) (x : BitVec 32) : Ln :=
  match f32 x with
  | .fin n m e =>
    if m = 0 then { v := maxF32 true, ovf := true }
    else if n then lnNan
    else
      let (mm, k) := normF m e
      let s := mantSeg mm
      (tabEval compat img s.1 s.2).bind fun t => addL (intL (k < 0) k.natAbs).v t
  | _ => lnNan

/-- RECIP before the flush (R201). -/
def recipL (compat : Bool) (img : List Word) (x : BitVec 32) : Ln :=
  match f32 x with
  | .fin n m e =>
    if m = 0 then { v := maxF32 n, ovf := true }
    else
      let (mm, k) := normF m e
      let s := mantSeg mm
      (tabEval compat img s.1 s.2).bind fun t => (scaleL t (-k)).bind fun y => .pure (if n then negF y else y)
  | _ => lnNan

/-- RSQRT before the flush (R201). -/
def rsqrtL (compat : Bool) (img : List Word) (x : BitVec 32) : Ln :=
  match f32 x with
  | .fin n m e =>
    if m = 0 then { v := maxF32 false, ovf := true }
    else if n then lnNan
    else
      let (mm, k) := normF m e
      let s := mantSeg mm
      let p := k % 2
      (tabEval compat img (256 * p.toNat + s.1) s.2).bind fun t => scaleL t (-((k - p) / 2))
  | _ => lnNan

/-- 1.0. -/
def one32 : BitVec 32 := 0x3F800000#32

/-- SIGMOID before the flush (R201). -/
def sigmoidL (compat : Bool) (img : List Word) (x : BitVec 32) : Ln :=
  match f32 x with
  | .fin n m e =>
    let r := floorFrac false m e
    let s : Ln := if r.1 ≥ 16 then .pure one32 else
      let s := segOff false m e 5
      tabEval compat img s.1.toNat s.2
    if n && m ≠ 0 then s.bind fun y => subL one32 y else s
  | _ => lnNan

/-- TANH before the flush (R201). -/
def tanhL (compat : Bool) (img : List Word) (x : BitVec 32) : Ln :=
  match f32 x with
  | .fin n m e =>
    if m = 0 || (flog2 m : Int) + e < -12 then .pure x
    else if (floorFrac false m e).1 ≥ 8 then .pure (if n then negF one32 else one32)
    else
      let s := segOff false m e 6
      (tabEval compat img s.1.toNat s.2).bind fun y => .pure (if n then negF y else y)
  | _ => lnNan

/-- GELU before the flush (R201). -/
def geluL (compat : Bool) (img : List Word) (x : BitVec 32) : Ln :=
  match f32 x with
  | .fin n m e =>
    let f := (floorFrac n m e).1
    let g : Ln :=
      if f ≥ 8 then .pure one32
      else if f < -8 then .pure 0
      else
        let s := segOff n m e 6
        tabEval compat img (512 + s.1).toNat s.2
    g.bind fun y => mulL x y
  | _ => lnNan

/-- TWO_OVER_PI (R204). -/
def twoOverPi : Fp := .fin false 0xA2F9836E4E44152A (-64)

/-- sincos (R204), before the flush. -/
def sincosL (img : List Word) (x : BitVec 32) (cosine : Bool) : Ln :=
  match f32 x with
  | .fin n m e =>
    match wmul (.fin n m e) twoOverPi with
    | .fin _ um ue =>
      let a := floorFrac false um ue
      let q := (a.1.toNat + b1 cosine) % 4
      let f : Fp := .fin false a.2.1 (-(a.2.2 : Int))
      let f := if q % 2 = 1 then wsub (.fin false 1 0) f else f
      match wmul f (.fin false 256 0) with
      | .fin _ vm ve =>
        let i := min (floorFrac false vm ve).1.toNat 255
        let t := rne32 (wsub (.fin false vm ve) (.fin false i 0))
        (tabEval false img i t.v).bind fun y =>
          let y := if q ≥ 2 then negF y else y
          .pure (if !cosine && n && m ≠ 0 then negF y else y)
      | _ => lnNan
    | _ => lnNan
  | _ => lnNan

/-- A subnormal input as a zero of its sign (R212). -/
def ftz (x : BitVec 32) : BitVec 32 := if x &&& 0x7F800000#32 = 0 then x &&& 0x80000000#32 else x

/-- Function `fn` of R197 with the image of its table: special inputs, reduction, reconstruction and flush. -/
def sfu (compat : Bool) (fn : Nat) (img : List Word) (x : BitVec 32) : Ln :=
  let c := compat && fn ≤ 10
  let x := if c then ftz x else x
  if nonFin x then lnNan
  else
    let lo : Int := if c then -126 else -24
    match fn with
    | 1 => flushF (-126) (exp2L c img x)
    | 2 => (mulL x 0x3FB8AA3B#32).bind fun y => flushF (-126) (exp2L c img (if c then ftz y else y))
    | 3 => flushF (-126) (log2L c img x)
    | 4 => if isZeroF x then { v := maxF32 true, ovf := true } else flushF (-126) ((flushF (-126) (log2L c img x)).bind fun y => mulL y 0x3F317218#32)
    | 5 => flushF (-126) (recipL c img x)
    | 6 => flushF (-126) (rsqrtL c img x)
    | 7 => flushF lo (sigmoidL c img x)
    | 8 => flushF (-126) ((flushF lo (sigmoidL c img x)).bind fun y => mulL x y)
    | 9 => flushF (-126) (tanhL c img x)
    | 10 => flushF (-126) (geluL c img x)
    | 11 => flushF (-24) (sincosL img x false)
    | 12 => flushF (-24) (sincosL img x true)
    | _ => lnNan

/-- C1 and C1 + 2 C2, formed exactly, are both at least 0 or both at most 0 (R203). -/
def segMono (c1 c2 : BitVec 32) : Bool :=
  match f32 c1, f32 c2 with
  | .fin n1 m1 e1, .fin n2 m2 e2 =>
    let s := exAdd n1 m1 e1 n2 m2 (e2 + 1)
    (((!n1) || m1 = 0) && ((!s.1) || s.2.1 = 0)) || ((n1 || m1 = 0) && (s.1 || s.2.1 = 0))
  | _, _ => false

/-- Whether a LOAD accepts an image (R203, R212). -/
def tabLegal (compat : Bool) (tid : Nat) (img : List Word) : Bool :=
  let n := tabN tid
  let fin := (List.range n).all fun i =>
    let (c0, c1, c2, en) := tabEntry img i
    !nonFin c0 && !nonFin c1 && !nonFin c2 && (!nonFin en || (compat && tid ≤ 6))
  if compat && tid ≤ 6 then fin
  else
    fin && (List.range n).all fun i =>
      let (_, c1, c2, en) := tabEntry img i
      segMono c1 c2 && (i + 1 = n || (tid = 3 && i = 255) || en = (tabEntry img (i + 1)).1)

/-- Builds the largest m, bit by bit from bit `k` down, with m^512 at most `b`. -/
def root512 (b : Nat) : Nat → Nat → Nat
  | 0, m => m
  | k + 1, m => root512 b k (if (m + 2 ^ k) ^ 512 ≤ b then m + 2 ^ k else m)

/-- cr32 of 2^(j ÷ 512) for j up to 512 (R205). -/
def crExp2 (j : Nat) : BitVec 32 :=
  let m := root512 (2 ^ (j + 23 * 512)) 25 0
  (lnRound false (2 * m + b1 ((2 * m + 1) ^ 512 ≤ 2 ^ (j + 24 * 512))) (-24) (m ^ 512 ≠ 2 ^ (j + 23 * 512))).v

/-- cr32 of 512 ÷ j (R205). -/
def crRecip (j : Nat) : BitVec 32 := (lnRound false (2 ^ 69 / j) (-60) (2 ^ 69 % j ≠ 0)).v

/-- gen_table (R205): segment `i` of EXP2T or, for table 2, of RECIPT. -/
def genSeg (tid i : Nat) : List Word :=
  let g (k : Nat) : BitVec 32 := if tid = 0 then crExp2 k else crRecip (512 + k)
  let v0 := g (2 * i)
  let v1 := g (2 * i + 1)
  let v2 := g (2 * i + 2)
  let x (v : BitVec 32) (k : Nat) (n : Bool) : Fp := match f32 v with | .fin _ m e => .fin n (k * m) e | y => y
  let c1 := rne32 (wadd (wadd (x v1 4 false) (x v0 3 true)) (x v2 1 true))
  let c2 := rne32 (wadd (wadd (x v0 2 false) (x v1 4 true)) (x v2 2 false))
  [c1.v ++ v0, v2 ++ c2.v]

/-- gen_table (R205). -/
def genTable (tid : Nat) : List Word := (List.range 256).flatMap (genSeg tid)

end Sys2Proof.Machine
end

