-- ==== Sys2Proof/Config.lean ====
section
/-! DEFINITION. What the manual leaves open and the model leaves free: constants with no body. -/

namespace Sys2Proof.Config

/-- R75: the chunks a rung-1 action will return are "estimated from the format ratio"; the manual
gives no formula. Applied to the model's own counter, so each estimate is a fresh free value (log entry 10). -/
opaque reencEstimate : Nat → Nat

/-- R60: the block-map cache is 8-way set associative; the manual does not say which set a line
falls in. Applied to the line's stack-local number (log entry 11). -/
opaque mapSet : Nat → Nat

/-- R109, R110: SEP_TRAP.INFO of a trap for which the manual names no entry, address, mask or trap value.
Applied to the model's own counter (log entry 12). -/
opaque freeTrapInfo : Nat → BitVec 32

/-- A binary32 value the manual does not state (a schedule's rate outside the number range).
Applied to the model's own counter (log entry 13). -/
opaque freeF32 : Nat → BitVec 32

/-- A byte the manual does not state (state an update op reads under a bus error).
Applied to the model's own counter (log entry 19). -/
opaque freeByte : Nat → BitVec 8

/-- A word the manual does not state (RESULT of a ring command that is refused).
Applied to the model's own counter (log entry 22). -/
opaque freeWord : Nat → BitVec 64

/-- The stored length mkent computes for a tensor of the low-rank format whose context declares rank 0: R94 divides by K = 0
there. Applied to the model's own counter (log entry 76). -/
opaque freeMapLen : Nat → Nat

/-- R164: the sign of the NaN that element `j` of an MX block with scale 0xFF decodes as, a function of the block's bytes (log
entry 82). -/
opaque mxNanSign : List (BitVec 8) → Nat → Bool

/-- R168: the sign of a NaN that the low-rank accumulation yields, a function of the accumulator and the two factors (log
entry 82). -/
opaque lrkNanSign : BitVec 32 → BitVec 32 → BitVec 32 → Bool

end Sys2Proof.Config
end

