-- ==== Sys2Proof/Machine/Formats.lean ====
section
/-! DEFINITION. Tensor formats: element encodings, rounding, MX blocks, conversions and the low-rank expander (R154 to R171). -/

namespace Sys2Proof.Machine

/-- Element types (R158). -/
inductive ETy where
  | bf16 | f16 | f32 | e4m3 | e5m2 | e2m3 | e3m2 | e2m1 | int8 | int32
deriving DecidableEq, Repr

/-- The bits of an element. -/
def ETy.bits : ETy → Nat
  | .bf16 | .f16 => 16
  | .f32 | .int32 => 32
  | .e4m3 | .e5m2 | .int8 => 8
  | .e2m3 | .e3m2 => 6
  | .e2m1 => 4

/-- Exponent bits, mantissa bits M and bias of R158; zeros for the integer types. -/
def ETy.parm : ETy → Nat × Nat × Int
  | .bf16 => (8, 7, 127)
  | .f16 => (5, 10, 15)
  | .f32 => (8, 23, 127)
  | .e4m3 => (4, 3, 7)
  | .e5m2 => (5, 2, 15)
  | .e2m3 => (2, 3, 1)
  | .e3m2 => (3, 2, 3)
  | .e2m1 => (2, 1, 1)
  | .int8 | .int32 => (0, 0, 0)

/-- The code of the largest finite magnitude (R158). -/
def ETy.maxCode : ETy → Nat
  | .bf16 => 0x7F7F
  | .f16 => 0x7BFF
  | .f32 => 0x7F7FFFFF
  | .e4m3 => 0x7E
  | .e5m2 => 0x7B
  | .e2m3 | .e3m2 => 0x1F
  | .e2m1 => 7
  | .int8 => 127
  | .int32 => 0x7FFFFFFF

/-- emax_elem (R158). -/
def ETy.emax : ETy → Int
  | .e4m3 => 8
  | .e5m2 | .f16 => 15
  | .e2m3 | .e2m1 => 2
  | .e3m2 => 4
  | .bf16 | .f32 => 127
  | .int8 | .int32 => 0

/-- Decodes an element (R158). -/
def decElem (t : ETy) (c : Nat) : Fp :=
  match t with
  | .int8 =>
    let n := c % 256
    if n < 128 then .fin false n (-6) else .fin true (256 - n) (-6)
  | .int32 =>
    let n := c % 2 ^ 32
    if n < 2 ^ 31 then .fin false n 0 else .fin true (2 ^ 32 - n) 0
  | .e4m3 => if c % 128 = 127 then .nan (c ≥ 128) else decodeF 4 3 7 false c
  | .bf16 => decodeF 8 7 127 true c
  | .f16 => decodeF 5 10 15 true c
  | .f32 => decodeF 8 23 127 true c
  | .e5m2 => decodeF 5 2 15 true c
  | .e2m3 => decodeF 2 3 1 false c
  | .e3m2 => decodeF 3 2 3 false c
  | .e2m1 => decodeF 2 1 1 false c

/-- The result of a conversion and the events it counts (R159, R161, R171). -/
structure Cv where
  c : Nat
  sat : Bool := false
  uflow : Bool := false
  nf : Bool := false
deriving DecidableEq, Repr

/-- unit_of (R159). -/
def unitOf (t : ETy) (m : Nat) (q : Int) : Int :=
  match t with
  | .int8 => -6
  | .int32 => 0
  | _ => let (_, mb, bias) := t.parm; max ((flog2 m : Int) + q) (1 - bias) - mb

/-- Encodes a value in an element type with 16 draw bits (R158, R159, R161). -/
def encElem (t : ETy) (v : Fp) (d : Nat) : Cv :=
  let (_, mb, bias) := t.parm
  let sgn (n : Bool) : Nat := b1 n * 2 ^ (t.bits - 1)
  match v with
  | .nan n =>
    match t with
    | .bf16 => { c := 0x7FC0 + sgn n, nf := true }
    | .f16 => { c := 0x7E00 + sgn n, nf := true }
    | .f32 => { c := 0x7FC00000 + sgn n, nf := true }
    | .e5m2 => { c := 0x7E + sgn n, nf := true }
    | _ => { c := 0x7F + sgn n, nf := true }
  | .inf n =>
    match t with
    | .bf16 => { c := 0x7F80 + sgn n, nf := true }
    | .f16 => { c := 0x7C00 + sgn n, nf := true }
    | .f32 => { c := 0x7F800000 + sgn n, nf := true }
    | .e5m2 => { c := 0x7C + sgn n, nf := true }
    | _ => { c := 0x7F + sgn n, nf := true }
  | .fin n m q =>
    if m = 0 then { c := if t = .int8 || t = .int32 then 0 else sgn n }
    else
      let u := unitOf t m q
      let k := srStep m q u d
      let mag (k : Nat) : Nat :=
        -- the code of magnitude k × 2^u; a carry k = 2^(M+1) goes one binade up
        if k < 2 ^ mb then k
        else
          let (k, u) := if k = 2 ^ (mb + 1) then (2 ^ mb, u + 1) else (k, u)
          (u + mb + bias).toNat * 2 ^ mb + (k - 2 ^ mb)
      match t with
      | .int8 =>
        let k' := Nat.min k 127
        { c := if n then (256 - k') % 256 else k', sat := k > 127, uflow := k = 0 }
      | .int32 => { c := if n then (2 ^ 32 - k) % 2 ^ 32 else k }
      | _ =>
        let c := mag k
        if c > t.maxCode then { c := t.maxCode + sgn n, sat := true }
        else { c := c + sgn n, uflow := k = 0 }

/-- Whether a format is an MX format (R154). -/
def isMx (f : Nat) : Bool := 5 ≤ f && f ≤ 10

/-- Whether a format holds 16- or 32-bit elements a lane reads as they are (R182). -/
def isFloat (f : Nat) : Bool := f ≤ 2

/-- Whether an FMT code is reserved (R154). -/
def fmtReserved (f : Nat) : Bool := f ≥ 0xD

/-- The element type of a format (R158). -/
def eTy (f : Nat) : ETy :=
  match f with
  | 0 => .bf16
  | 1 => .f16
  | 2 => .f32
  | 3 | 5 => .e4m3
  | 4 | 6 => .e5m2
  | 7 => .int8
  | 8 => .e2m3
  | 9 => .e3m2
  | 10 => .e2m1
  | 0xB => .bf16
  | _ => .int32

/-- Bytes of an MX block (R154). -/
def mxS (f : Nat) : Nat := 1 + 4 * (eTy f).bits

/-- Codec blocks of a full frame (R154). -/
def fmtK (f rank : Nat) : Nat :=
  if isMx f then mxS f
  else match f with
    | 0 | 1 => 64
    | 2 | 0xC => 128
    | 3 | 4 => 32
    | 0xB => rank
    | _ => 64

/-- The element width W and the plane count P of R134. -/
def fmtW (f : Nat) : Nat :=
  match f with
  | 0 | 1 | 0xB => 2
  | 2 | 0xC => 4
  | _ => 1

/-- stored_len (R166). -/
def storedLen (f n r : Nat) : Nat :=
  if isMx f then cdiv n 32 * mxS f
  else if f = 0xB then n / 16384 * 512 * r
  else n * fmtW f

/-- The elements of a frame (R154). -/
abbrev frameElems : Nat := 131072

/-- Events of the format unit on a tile (R171, R195). -/
structure FCnt where
  nonfin : Nat := 0
  sat : Nat := 0
  uflow : Nat := 0
  nf : Bool := false
deriving DecidableEq, Repr

/-- Adds the events of two tiles. -/
def FCnt.add (a b : FCnt) : FCnt :=
  { nonfin := a.nonfin + b.nonfin, sat := a.sat + b.sat, uflow := a.uflow + b.uflow, nf := a.nf || b.nf }

/-- The events of one conversion. -/
def Cv.cnt (x : Cv) (counted : Bool := true) : FCnt :=
  { nonfin := if counted then b1 x.nf else 0, sat := b1 x.sat, uflow := b1 x.uflow, nf := x.nf }

/-- Whether a value is a zero. -/
def Fp.isZero : Fp → Bool
  | .fin _ 0 _ => true
  | _ => false

/-- Whether a value is finite. -/
def Fp.isFin : Fp → Bool
  | .fin .. => true
  | _ => false

/-- floor_log2 of a non-zero magnitude. -/
def Fp.lg : Fp → Option Int
  | .fin _ m e => if m = 0 then none else some ((flog2 m : Int) + e)
  | _ => none

/-- A value times a power of two. -/
def Fp.scale (k : Int) : Fp → Fp
  | .fin n m e => .fin n m (e + k)
  | x => x

/-- Packs codes of `w` bits into one little-endian integer (R163). -/
def packCodes (w : Nat) : List Nat → Nat
  | [] => 0
  | c :: r => c + packCodes w r * 2 ^ w

/-- The codes of `w` bits that an integer holds, `n` of them. -/
def unpackCodes (w : Nat) : Nat → Nat → List Nat
  | 0, _ => []
  | n + 1, v => (v % 2 ^ w) :: unpackCodes w n (v / 2 ^ w)

/-- mx_encode (R162); `db` gives the draw bits of the block's element `j`. -/
def mxEncode (f : Nat) (db : Nat → Nat) (x : List Fp) : List Byte × FCnt :=
  let s := mxS f
  let t := eTy f
  if x.any fun v => !v.isFin then (0xFF#8 :: zeros (s - 1), { nonfin := 1, nf := true })
  else
    match x.filterMap Fp.lg with
    | [] => (zeros s, {})
    | e :: r =>
      let emx := r.foldl max e
      let sc := (min (max (emx - t.emax + 127) 0) 254).toNat
      let cs := (x.zipIdx).map fun (v, j) => encElem t (v.scale (127 - (sc : Int))) (db j)
      (BitVec.ofNat 8 sc :: toBytes (s - 1) (packCodes t.bits (cs.map Cv.c)),
        cs.foldl (fun a c => a.add c.cnt) {})

/-- Decodes an MX block (R163, R164); the signs of the NaNs of a scale of 0xFF are free (log entry 82). -/
def mxDecode (f : Nat) (b : List Byte) : List Fp × Bool :=
  let t := eTy f
  match b with
  | [] => ([], false)
  | sc :: r =>
    if sc = 0xFF#8 then ((List.range 32).map fun j => .nan (Config.mxNanSign b j), true)
    else ((unpackCodes t.bits 32 (ofBytes r)).map fun c => (decElem t c).scale ((sc.toNat : Int) - 127), false)

/-- The values of `k` MX blocks. -/
def mxBlocks (f : Nat) : Nat → List Byte → List Fp × Bool
  | 0, _ => ([], false)
  | k + 1, b =>
    let x := mxDecode f (b.take (mxS f))
    let r := mxBlocks f k (b.drop (mxS f))
    (x.1 ++ r.1, x.2 || r.2)

/-- The values of `n` plain elements of `w` bytes. -/
def plainElems (t : ETy) (w : Nat) : Nat → List Byte → List Fp
  | 0, _ => []
  | n + 1, b => decElem t (ofBytes (b.take w)) :: plainElems t w n (b.drop w)

/-- Decodes `n` elements laid out in a format other than LRK; the flag is R164's for a scale of 0xFF. -/
def decElems (f n : Nat) (b : List Byte) : List Fp × Bool :=
  if isMx f then
    let r := mxBlocks f (cdiv n 32) b
    (r.1.take n, r.2)
  else (plainElems (eTy f) (fmtW f) n b, false)

/-- Encodes plain elements, the first being element `e` of its frame. -/
def encPlain (t : ETy) (w : Nat) (db : Nat → Nat) (e : Nat) (x : List Fp) : List Byte × FCnt :=
  let cs := (x.zipIdx e).map fun (v, j) => encElem t v (db j)
  (cs.flatMap fun c => toBytes w c.c, cs.foldl (fun a c => a.add c.cnt) {})

/-- Encodes `k` MX blocks, the first being block `b0` of its frame; a short last block is padded with zeros. -/
def encMx (f : Nat) (db : Nat → Nat) : Nat → Nat → List Fp → List Byte × FCnt
  | 0, _, _ => ([], {})
  | k + 1, b0, x =>
    let h := x.take 32
    let h := h ++ List.replicate (32 - h.length) (.fin false 0 0)
    let y := mxEncode f (fun j => db (32 * b0 + j)) h
    let r := encMx f db k (b0 + 1) (x.drop 32)
    (y.1 ++ r.1, y.2.add r.2)

/-- Encodes elements of a frame, the first being element `e` of it, in a format other than LRK and INT32 (R156, R157, R162). -/
def encFrame (f : Nat) (a : DrawAddr) (e : Nat) (x : List Fp) : List Byte × FCnt :=
  if isMx f then encMx f (drawBits a) (cdiv x.length 32) (e / 32) x
  else encPlain (eTy f) (fmtW f) (drawBits a) e x

/-- The bytes of `m` elements of a frame from element `a` on, whole MX blocks in an MX format. -/
def formPart (f a m : Nat) (b : List Byte) : List Byte :=
  if isMx f then (b.drop (a / 32 * mxS f)).take (cdiv m 32 * mxS f) else (b.drop (a * fmtW f)).take (m * fmtW f)

/-- Whether a stream-in op may store the declared input type in a format, and whether it converts (R156). -/
def sinPair (inF f : Nat) : Option Bool :=
  if inF = f ∧ f ≤ 0xC then some false
  else if inF ≤ 2 ∧ (f ≤ 1 ∨ (3 ≤ f ∧ f ≤ 10)) then some true
  else none

/-- A NaN of the low-rank accumulation: no sign is stated for it, and it is free (log entry 82). -/
def lrkNan (acc u v : BitVec 32) : BitVec 32 := if Config.lrkNanSign acc u v then 0xFFC00000#32 else qnan

/-- The product of two values, non-finite cases as IEEE 754 gives them, and the sum rounded to binary32 (R168). -/
def lrkAcc (acc u v : BitVec 32) : BitVec 32 :=
  match f32 acc, f32 u, f32 v with
  | .fin n1 m1 e1, .fin n2 m2 e2, .fin n3 m3 e3 =>
    let r := exAdd n1 m1 e1 (n2 != n3) (m2 * m3) (e2 + e3)
    let y := roundF32 r.1 r.2.1 r.2.2
    if y.2 then (if r.1 then 0xFF800000#32 else 0x7F800000#32) else y.1
  | a, x, y =>
    let p : Fp :=
      match x, y with
      | .nan _, _ => .nan false
      | _, .nan _ => .nan false
      | .inf n, .inf m => .inf (n != m)
      | .inf n, .fin m k _ => if k = 0 then .nan false else .inf (n != m)
      | .fin n k _, .inf m => if k = 0 then .nan false else .inf (n != m)
      | .fin n k e, .fin m j f => .fin (n != m) (k * j) (e + f)
    match a, p with
    | .inf n, .inf m => if n = m then (if n then 0xFF800000#32 else 0x7F800000#32) else lrkNan acc u v
    | .inf n, .fin .. => if n then 0xFF800000#32 else 0x7F800000#32
    | .fin .., .inf n => if n then 0xFF800000#32 else 0x7F800000#32
    | _, _ => lrkNan acc u v

/-- BF16 number `i` of a byte string, as binary32. -/
def bf16At (l : List Byte) (i : Nat) : BitVec 32 := BitVec.ofNat 32 (ofBytes ((l.drop (2 * i)).take 2) * 65536)

/-- lrk_elem (R168) before the narrowing: element (row, col) of a tile of rank `r`. -/
def lrkElem (r : Nat) (tile : List Byte) (row col : Nat) : BitVec 32 :=
  (List.range r).foldl
    (fun a k => lrkAcc a (bf16At tile (128 * k + row)) (bf16At tile (128 * r + 128 * k + col))) 0

/-- The values of `n` elements of a frame of an LRK tensor of rank `r`, multiplied out and written as
BF16 (R167, R168), the first being element `e` of its frame. -/
def lrkElems (r : Nat) (db : Nat → Nat) : Nat → Nat → List Byte → List (BitVec 32) × FCnt
  | 0, _, _ => ([], {})
  | n + 1, e, b =>
    -- element e lies in tile e / 16384 of the frame
    let t := (b.drop (e / 16384 * (512 * r))).take (512 * r)
    let c := encElem .bf16 (f32 (lrkElem r t (e % 16384 / 128) (e % 128))) (db e)
    let x := lrkElems r db n (e + 1) b
    (BitVec.ofNat 32 (c.c * 65536) :: x.1, c.cnt.add x.2)

/-- Widens `n` elements of a frame, the first being element `e0` of it, to binary32 values, `toF32` for a binary32 target and else
through BF16 (R157, R164, R168); `b` is their form, of the whole frame for LRK, and `db` gives the draw bits of an element of it. -/
def widen (f rank : Nat) (toF32 : Bool) (db : Nat → Nat) (e0 n : Nat) (b : List Byte) : List (BitVec 32) × FCnt :=
  if f = 0xB then lrkElems rank db n e0 b
  else
    let d := decElems f n b
    let t : ETy := if toF32 then .f32 else .bf16
    let cs := (d.1.zipIdx e0).map fun (v, e) => encElem t v (db e)
    (cs.map fun c => BitVec.ofNat 32 (if toF32 then c.c else c.c * 65536),
      cs.foldl (fun x c => x.add c.cnt) { nf := d.2 })

/-- A binary32 value narrowed to an output type (R194): 0 BF16, 1 binary16, 2 binary32. -/
def narrow (f : Nat) (x : BitVec 32) (d : Nat) : Cv :=
  if f = 2 then { c := x.toNat } else encElem (eTy f) (f32 x) d

/-- Values converted to an element type, the first being element `e0` of its frame (R159, R161). -/
def encVals (t : ETy) (a : DrawAddr) (e0 : Nat) (x : List Fp) : List Cv := (x.zipIdx e0).map fun (v, e) => encElem t v (drawBits a e)

/-- The events of several conversions. -/
def cvCount (cs : List Cv) : FCnt := cs.foldl (fun a c => a.add c.cnt) {}

/-- A value as a lane's binary32 input (R172: exact for the formats of R182). -/
def laneIn (v : Fp) : BitVec 32 := BitVec.ofNat 32 (encElem .f32 v 0).c

end Sys2Proof.Machine
end

