-- ==== Sys2Proof/Machine/Codec.lean ====
section
/-! DEFINITION. The block codec: prefix codes, the encoder and the expander (R131 to R146). -/

namespace Sys2Proof.Machine

/-- Byte planes of a format (R134): W is also the number of planes. -/
def planeTab (f p : Nat) : Nat :=
  match f with
  | 0 | 1 | 0xB => if p = 0 then 0 else 1
  | 2 => if p = 3 then 1 else 0
  | 0xC => if p = 0 then 0 else 3
  | _ => 2

/-- The 272 code lengths of table `t` of a generation image (R137). -/
def imgLens (img : List Word) (t : Nat) : List Nat :=
  ((img.drop (17 * t)).take 17).flatMap fun w => (List.range 16).map fun i => fld w (4 * i + 3) (4 * i)

/-- Whether a generation image is legal (R138). -/
def imgLegal (img : List Word) : Bool :=
  (List.range 4).all fun t =>
    let l := imgLens img t
    (l.drop 268).all (· == 0) && (l.foldl (fun a b => if b = 0 then a else a + 2 ^ (15 - b)) 0) ≤ 32768

/-- The symbols with a code word: symbol, length and code word (R139, build_code). -/
def buildCode (len : List Nat) : List (Nat × Nat × Nat) :=
  let z := len.zipIdx
  let cnt (b : Nat) : Nat := if b = 0 then 0 else len.count b
  let first : List Nat := (List.range 15).foldl (fun (a : List Nat) b => a ++ [2 * (a.getLastD 0 + cnt b)]) []
  (List.range 15).flatMap fun b =>
    ((z.filter fun x => x.1 = b + 1).zipIdx).map fun (x, i) => (x.2, b + 1, first.getD b 0 + i)

/-- The code word of a symbol: length and word; length 0 where it has none. -/
def codeOf (c : List (Nat × Nat × Nat)) (s : Nat) : Nat × Nat :=
  match c.find? fun x => x.1 = s with
  | some x => x.2
  | none => (0, 0)

/-- The low `b` bits of a code word, most significant first (R136). -/
def bitsMsb : Nat → Nat → List Bool
  | 0, _ => []
  | b + 1, c => (c.testBit b) :: bitsMsb b c

/-- The low `k` bits of a value, least significant first (R136). -/
def bitsLsb : Nat → Nat → List Bool
  | 0, _ => []
  | k + 1, c => (c % 2 = 1) :: bitsLsb k (c / 2)

/-- The bits of a byte string (R136). -/
def streamBits (l : List Byte) : List Bool := l.flatMap fun b => bitsLsb 8 b.toNat

/-- Packs bits into bytes, padding with 0 bits; `n` bytes (R136). -/
def packBits : Nat → List Bool → List Byte
  | 0, _ => []
  | n + 1, l => BitVec.ofNat 8 ((l.take 8).foldr (fun b a => b1 b + 2 * a) 0) :: packBits n (l.drop 8)

/-- Plane modes (R140). -/
inductive PMode where
  | coded | stored | zero
deriving DecidableEq, Repr

/-- The zero bytes at the head of a list. -/
def zeroRun : List Byte → Nat
  | [] => 0
  | b :: r => if b = 0 then zeroRun r + 1 else 0

/-- The loop of encode_plane (R141): bits and symbol count, or nothing where a byte has no code word.
The first argument bounds the iterations. -/
def encLoop (c : List (Nat × Nat × Nat)) : Nat → List Byte → Option (List Bool × Nat)
  | 0, _ => some ([], 0)
  | _, [] => some ([], 0)
  | n + 1, b :: r =>
    let l := zeroRun (b :: r)
    let k := flog2 l
    let z := codeOf c (255 + k)
    if l ≥ 2 && z.1 ≠ 0 then
      (encLoop c n (r.drop (l - 1))).map fun y => (bitsMsb z.1 z.2 ++ bitsLsb k (l - 2 ^ k) ++ y.1, y.2 + 1)
    else
      let v := codeOf c b.toNat
      if v.1 ≠ 0 then (encLoop c n r).map fun y => (bitsMsb v.1 v.2 ++ y.1, y.2 + 1) else none

/-- encode_plane (R141). -/
def encPlane (x : List Byte) (len : List Nat) : PMode × List Byte × Nat :=
  if allZero x then (.zero, [], 0)
  else
    match encLoop (buildCode len) x.length x with
    | none => (.stored, x, 0)
    | some (bs, cnt) =>
      let nb := cdiv bs.length 8
      if nb ≥ x.length then (.stored, x, 0) else (.coded, packBits nb bs, cnt)

/-- sectors_for (scope chapter). -/
def sectorsFor (c : Nat) : Nat := if (c + 16 + 63) / 64 > 63 then 64 else (c + 16 + 63) / 64

/-- Plane `p` of raw bytes of element width `w`. -/
def planeOf (w p : Nat) : Nat → List Byte → List Byte
  | 0, _ => []
  | n + 1, b => b.getD p 0 :: planeOf w p n (b.drop w)

/-- A block as it is stored (R131): CODE, GEN, sectors and the stored bytes. -/
structure Coded where
  code : Nat
  gen : Nat
  sect : Nat
  data : List Byte
deriving DecidableEq, Repr

/-- A block stored RAW (R131). -/
def rawBlock (x : List Byte) : Coded := { code := 0, gen := 0, sect := 64, data := padTo 4096 x }

/-- The encoder on the E bytes of a block (R132, R142, R143). `g` is the generation and its image;
none where the op codes without one. -/
def encBlock (cur : Nat) (lsl : Bool) (g : Option (BitVec 4 × List Word)) (x : List Byte) : Coded :=
  if !lsl then rawBlock x
  else if allZero x then { code := 2, gen := 0, sect := 0, data := [] }
  else
    match g with
    | none => rawBlock x
    | some (g, img) =>
      let w := fmtW cur
      let n := x.length / w
      let ps := (List.range w).map fun p => encPlane (planeOf w p n x) (imgLens img (planeTab cur p))
      let body := ps.flatMap fun p => p.2.1
      let s := sectorsFor body.length
      if s = 64 then rawBlock x
      else
        let pm (m : PMode) : Nat := match m with | .coded => 0 | .stored => 1 | .zero => 2
        let mode := (ps.zipIdx).foldl (fun a (p, i) => a + pm p.1 * 4 ^ i) 0
        let nsym := (ps.zipIdx).foldl (fun a (p, i) => a + (p.2.2 - 1) * 2 ^ (12 * i)) 0
        let plen := ((ps.take (w - 1)).zipIdx).foldl (fun a (p, i) => a + p.2.1.length * 2 ^ (12 * i)) 0
        let rind := cur + g.toNat * 2 ^ 4 + (x.length - 1) * 2 ^ 8 + body.length * 2 ^ 20 + mode * 2 ^ 32 +
          nsym * 2 ^ 40 + plen * 2 ^ 88
        { code := 1, gen := g.toNat, sect := s, data := padTo (64 * s) (toBytes 16 rind ++ body) }

/-- The block-map entry of R57 for a stored block at a DPA. -/
def mapEntry (c : Coded) (dpa : Nat) : Word :=
  if c.code = 2 then pack [(62, 2)]
  else pack [(62, c.code), (58, c.gen), (52, c.sect - 1), (6, dpa / 64 % 2 ^ 42)]

/-- Outcome of reading symbols: what is left, or the reason of R145. -/
inductive Rd (α : Type) where
  | ok (x : α)
  | bad (r : Nat)
deriving DecidableEq, Repr

/-- Reads one symbol (R144): the remaining allowance of bits, the bits, the length and value read so far. -/
def readSym (c : List (Nat × Nat × Nat)) : Nat → List Bool → Nat → Nat → Rd (Nat × List Bool)
  | 0, _, _, _ => .bad 7
  | _ + 1, [], _, _ => .bad 8
  | n + 1, b :: r, l, v =>
    let v := 2 * v + b1 b
    match c.find? fun x => x.2.1 = l + 1 ∧ x.2.2 = v with
    | some x => .ok (x.1, r)
    | none => readSym c n r (l + 1) v

/-- The loop of decode_plane (R144): symbols left, the bits left, and the bytes still to produce. -/
def decLoop (c : List (Nat × Nat × Nat)) : Nat → List Bool → Nat → Rd (List Byte × List Bool)
  | 0, bs, n => if n ≠ 0 then .bad 9 else .ok ([], bs)
  | k + 1, bs, n =>
    match readSym c 15 bs 0 0 with
    | .bad r => .bad r
    | .ok (s, bs) =>
      if s < 256 then
        if 1 > n then .bad 9
        else
          match decLoop c k bs (n - 1) with
          | .bad r => .bad r
          | .ok (y, t) => .ok (BitVec.ofNat 8 s :: y, t)
      else
        let e := s - 255
        if e > bs.length then .bad 8
        else
          let l := 2 ^ e + (bs.take e).foldr (fun b a => b1 b + 2 * a) 0
          if l > n then .bad 9
          else
            match decLoop c k (bs.drop e) (n - l) with
            | .bad r => .bad r
            | .ok (y, t) => .ok (zeros l ++ y, t)

/-- decode_plane (R144). -/
def decPlane (st : List Byte) (cnt n : Nat) (len : List Nat) : Rd (List Byte) :=
  match decLoop (buildCode len) cnt (streamBits st) n with
  | .bad r => .bad r
  | .ok (y, t) => if t.length ≥ 8 then .bad 8 else .ok y

/-- Puts planes back into elements (R144). -/
def weave (ps : List (List Byte)) : Nat → List Byte
  | 0 => []
  | n + 1 => (ps.map fun p => p.headD 0) ++ weave (ps.map List.tail) n

/-- The plane lengths of a rind (R140). -/
def rindPlens (r : BitVec 128) (w : Nat) : List Nat :=
  let l := (List.range (w - 1)).map fun p => fld r (99 + 12 * p) (88 + 12 * p)
  l ++ [fld r 31 20 - l.foldl (· + ·) 0]

/-- The checks of reasons 0x1 to 0x6 (R145), in that order; 0 where all pass. -/
def checkRind (r : BitVec 128) (m : Word) (e cur : Nat) : Nat :=
  let w := fmtW cur
  let n := e / w
  let mode (p : Nat) : Nat := fld r (33 + 2 * p) (32 + 2 * p)
  let nsym (p : Nat) : Nat := fld r (51 + 12 * p) (40 + 12 * p)
  let plen (p : Nat) : Nat := fld r (99 + 12 * p) (88 + 12 * p)
  let coded := fld r 31 20
  if fld r 127 124 ≠ 0 ∨ ((List.range 4).any fun p => mode p = 3 || (p ≥ w && (mode p ≠ 0 || nsym p ≠ 0))) ∨
      ((List.range 3).any fun p => p + 1 ≥ w && plen p ≠ 0) then 1
  else if fld r 3 0 ≠ cur then 2
  else if fld r 7 4 ≠ fld m 61 58 then 3
  else if fld r 19 8 + 1 ≠ e then 4
  else if fld m 57 52 + 1 ≠ cdiv (16 + coded) 64 then 5
  else if ((List.range (w - 1)).foldl (fun a p => a + plen p) 0) > coded then 6
  else if ((rindPlens r w).zipIdx).any fun (l, p) =>
      (mode p = 1 && l ≠ n) || (mode p = 2 && l ≠ 0) || (mode p = 0 && l = 0) || (mode p ≠ 0 && nsym p ≠ 0) then 6
  else 0

/-- The planes of a block from byte `pos` on (R144). -/
def expandPlanes (r : BitVec 128) (img : List Word) (cur n : Nat) : List Nat → Nat → List Byte → Rd (List (List Byte))
  | [], _, _ => .ok []
  | l :: ls, p, s =>
    let mode := fld r (33 + 2 * p) (32 + 2 * p)
    let y : Rd (List Byte) :=
      if mode = 0 then decPlane (s.take l) (fld r (51 + 12 * p) (40 + 12 * p) + 1) n (imgLens img (planeTab cur p))
      else if mode = 1 then .ok (s.take l)
      else .ok (zeros n)
    match y with
    | .bad x => .bad x
    | .ok y =>
      match expandPlanes r img cur n ls (p + 1) (s.drop l) with
      | .bad x => .bad x
      | .ok ys => .ok (y :: ys)

/-- What the expander makes of a block: its bytes, CB_RETIRED, or RIND_BAD with a reason (R144). -/
inductive Exp where
  | ok (x : List Byte)
  | retired
  | rind (r : Nat)
deriving DecidableEq, Repr

/-- expand (R144). `img` is the image of the block's generation, none where the tag is RETIRED or the
generation FREE; `tagOk` says that the entry's tag is the block's generation; `s` is the stored bytes. -/
def expand (m : Word) (e cur : Nat) (img : Option (List Word)) (tagOk : Bool) (s : List Byte) : Exp :=
  match fld m 63 62 with
  | 2 => .ok (zeros e)
  | 0 => .ok (s.take e)
  | _ =>
    match img with
    | none => .retired
    | some img =>
      if !tagOk then .rind 3
      else
        let r := BitVec.ofNat 128 (ofBytes (s.take 16))
        match checkRind r m e cur with
        | 0 =>
          match expandPlanes r img cur (e / fmtW cur) (rindPlens r (fmtW cur)) 0 (s.drop 16) with
          | .bad x => .rind x
          | .ok ps => .ok (weave ps (e / fmtW cur))
        | x => .rind x

/-- Whether a block-map entry is damaged under R133 or is CODE 3 (R58 adds the placement checks). -/
def mapDamaged (m : Word) : Bool :=
  match fld m 63 62 with
  | 0 => fld m 57 52 ≠ 63 || fld m 61 58 ≠ 0
  | 1 => fld m 57 52 = 63
  | 2 => fld m 57 52 ≠ 0 || fld m 61 58 ≠ 0 || fld m 47 6 ≠ 0
  | _ => true

end Sys2Proof.Machine
end

