-- ==== Sys2Proof/Machine/Stats.lean ====
section
/-! DEFINITION. Row sums and row statistics (R173, R175, R178, R180). -/

namespace Sys2Proof.Machine

/-- The least power of two, from `p` on, that is at least `n`; `k` bounds the doublings. -/
def pow2Up : Nat → Nat → Nat → Nat
  | 0, p, _ => p
  | k + 1, p, n => if p ≥ n then p else pow2Up k (2 * p) n

/-- The lane groups G that serve a row of `n` elements, `p` lanes to a group (R173). -/
def groupsFor (n p : Nat) : Nat := pow2Up 4 1 (cdiv n p)

/-- Adds the next `lanes.length` elements to the lanes. -/
def laneAdd : List Fp → List Fp → List Fp
  | a :: as, x :: xs => wadd a x :: laneAdd as xs
  | as, [] => as
  | [], _ => []

/-- Deals elements to the lanes, trip after trip (R175). The first argument bounds the trips. -/
def laneTrips : Nat → Nat → List Fp → List Fp → List Fp
  | 0, _, acc, _ => acc
  | n + 1, l, acc, x => if x = [] then acc else laneTrips n l (laneAdd acc (x.take l)) (x.drop l)

/-- One level of the tree: neighbours are added. -/
def treeLevel : List Fp → List Fp
  | a :: b :: r => wadd a b :: treeLevel r
  | l => l

/-- seg_sum (R175): `g` groups of `p` = 2^k lanes. -/
def segSum (x : List Fp) (g p : Nat) : Fp :=
  let l := g * p
  let acc := laneTrips (x.length + 1) l (List.replicate l (.fin false 0 0)) x
  let heads := (List.range g).map fun i => (iter treeLevel (flog2 p) ((acc.drop (i * p)).take p)).headD (.fin false 0 0)
  match heads with
  | [] => .fin false 0 0
  | h :: r => r.foldl wadd h

/-- The lanes of a group: 32 for a BF16 or binary16 output, 16 for binary32 (R172, R173). -/
def lanesOf (out32 : Bool) : Nat := if out32 then 16 else 32

/-- The partial sums S1 and S2 of a row segment (R175): `n` is the row's full length. -/
def segStats (x : List (BitVec 32)) (n : Nat) (out32 : Bool) : Fp × Fp :=
  let p := lanesOf out32
  let g := groupsFor n p
  let v := x.map f32
  (segSum v g p, segSum (v.map fun a => exMul a a) g p)

/-- The results of row_stats (R178). -/
structure RowSt where
  m : Ln
  rstd : Ln
  cancel : Bool
deriving DecidableEq, Repr

/-- The order of exact values: x < y. -/
def ltFp : Fp → Fp → Bool
  | .fin n1 m1 e1, .fin n2 m2 e2 =>
    let r := exAdd n1 m1 e1 (!n2) m2 e2
    r.1 && r.2.1 ≠ 0
  | _, _ => false

/-- row_stats with the check of R180. -/
def rowStats (s1 s2 : Fp) (n : Nat) (rms : Bool) (eps : BitVec 32) : RowSt :=
  let nn : Fp := .fin false n 0
  let z : Fp := .fin false 0 0
  let q := wdiv s2 nn
  let m := if rms then z else wdiv s1 nn
  let v := if rms then q else
    let v := wsub q (wmul m m)
    if ltFp v z then z else v
  { m := rne32 m, rstd := rsqrtRn32 (wadd v (f32 eps)),
    cancel := !rms && ltFp z q && ltFp v (match q with | .fin a b c => .fin a b (c - 20) | x => x) }

end Sys2Proof.Machine
end

