-- ==== Sys2Proof/Machine/State.lean ====
section
/-! DEFINITION. Everything the manual gives the block to hold, as plain data, and the state after cold reset. -/

namespace Sys2Proof.Machine

/-- Why the machine stops. No meaning of this model raises it: every command of the table has an
effect in the manual (safe). -/
inductive Fault where
  /-- Raised by no meaning; it stands for a stop the manual does not describe (safe). -/
  | unreachable
deriving DecidableEq, Repr

/-- Why a command is refused. -/
inductive Refusal where
  /-- A command that has no meaning in the model yet; raised only by an arm of `exec` (safe). -/
  | notModelled (mnemonic : String)
deriving DecidableEq, Repr

/-- A tensor descriptor register or word group: four words (R82). -/
structure Desc where
  w0 : Word := 0
  w1 : Word := 0
  w2 : Word := 0
  w3 : Word := 0
deriving DecidableEq, Repr

/-- SEP_STAT.STATE (R111). -/
inductive SepSt where
  | halted | running | trapped
deriving DecidableEq, Repr

/-- The separator (R80, R85, R108 to R111). `held` is the instruction that holds issue, `stepping`
says that a STEP write is in force, `lfTmo` is the timeout in force when a held lfence began to wait, `mapStall` is
the map length of a held mkent that has passed its checks and reported CELLAR_FULL (R94). -/
structure Sep where
  g : Vector Word 64
  t : Vector Desc 16
  p : BitVec 8
  pc : BitVec 15
  st : SepSt
  wait : BitVec 4
  inh : Bool
  held : Option Instr
  stepping : Bool
  lfTmo : BitVec 32
  mapStall : Option Nat
  cyc : Word
  layer : Word
  astat : BitVec 5
  trap : Word
deriving DecidableEq, Repr

/-- A ticket slot (R102, R124, R126, R129). -/
structure Ticket where
  taken : Bool := false
  seq : BitVec 8 := 0
  ctx : BitVec 14 := 0
  inst : Option Nat := none
  aon : BitVec 56 := 0
deriving DecidableEq, Repr

/-- Directory states (R62). -/
inductive ESt where
  | free | filling | resident | spilling | spilled | recalling | dropped | released
deriving DecidableEq, Repr

/-- A directory entry: the fields of R62, and beside them CHMASK and SWT (R242), the mark that a stin
was issued (R98), the element count and rank its stream-in context declared (R131, R154), and whether a recall in progress holds
a reference, because an instruction started it (R63). -/
structure Entry where
  st : ESt := .free
  fmt : BitVec 4 := 0
  cur : BitVec 4 := 0
  floor : BitVec 4 := 0
  lsl : Bool := false
  pin : Bool := false
  recipe : BitVec 16 := 0
  mapLen : BitVec 24 := 0
  mapBase : BitVec 18 := 0
  need : BitVec 32 := 0
  sectors : BitVec 40 := 0
  epoch : BitVec 16 := 0
  refs : BitVec 8 := 0
  cold : BitVec 36 := 0
  layer : BitVec 16 := 0
  chmask : BitVec 32 := 0
  swt : BitVec 4 := 0
  stin : Bool := false
  elems : Nat := 0
  rank : Nat := 0
  recRef : Bool := false
deriving DecidableEq, Repr

/-- Kinds of ladder action (R74 to R77); `ret` is one whose work is done and whose chunks the sweeps still return. -/
inductive Rung where
  | reenc | spill | ret
deriving DecidableEq, Repr

/-- A ladder action in progress on entry `e` (R74). For a re-encode, `back` is the estimate of the chunks it will return in every churn,
and `had` the chunks the entry owned there when it began (R75). -/
structure Action where
  e : Nat
  rung : Rung
  back : List Nat := []
  had : List Nat := []
deriving DecidableEq, Repr

/-- The ladder controller (R74 to R79). -/
structure Ladder where
  active : Bool := false
  rung : BitVec 3 := 0
  actions : List Action := []
  stalled : BitVec 32 := 0
  stallRaised : Bool := false
  passed : List Nat := []
deriving DecidableEq, Repr

/-- Stream context states (R240). -/
inductive CSt where
  | closed | opened | aborted
deriving DecidableEq, Repr

/-- A stream context: its eight words, state, POS and REL (R240, R241). -/
structure Ctx where
  w : List Word := [0, 0, 0, 0, 0, 0, 0, 0]
  st : CSt := .closed
  pos : BitVec 40 := 0
  rel : BitVec 40 := 0
deriving DecidableEq, Repr

/-- A semaphore pair (R103). -/
structure Pair where
  full : BitVec 16 := 0
  empty : BitVec 16 := 0
deriving DecidableEq, Repr

/-- The kinds of work a churn runs. -/
inductive OpKind where
  | sin | sout | cop | upd | reenc
deriving DecidableEq, Repr

/-- A churn op as the hub issued it (R98 to R101, R293). `mask`, `swt`, `elems` and `rank` give its
stripe and tensor; `tile0` is the first tile assigned to it (R248); `gen` is the generation reference
it took on entering the queue, and `noGen` says that it wanted one and got none (R149); `issued` is its chain's
CHAIN_STEPS as the hub found it at issue, which fixes its tiles and contexts (R242, R248). -/
structure ChurnOp where
  id : Nat := 0
  kind : OpKind := .sin
  desc : Desc := {}
  ga : Word := 0
  fmt : BitVec 4 := 0
  cur : BitVec 4 := 0
  lsl : Bool := false
  mask : BitVec 32 := 0
  swt : BitVec 4 := 0
  elems : Nat := 0
  rank : Nat := 0
  tile0 : Nat := 0
  issued : Word := 0
  gen : Option (BitVec 4) := none
  noGen : Bool := false
deriving DecidableEq, Repr

/-- The hub's record of an op in flight: the churns that have not completed it, and its deadline
(R63, R98, R259, R263). `prog` says that a separator instruction issued it; `rows` are the row numbers the hub has read from its index
list, those of the delivered rows routed so far (R252). -/
structure Task where
  id : Nat := 0
  op : ChurnOp := {}
  left : BitVec 32 := 0
  prog : Bool := true
  deadline : Nat := 0
  base : Option Nat := none
  missed : Bool := false
  aborted : Bool := false
  rows : List Nat := []
deriving DecidableEq, Repr

/-- A deferred fetch (R99). -/
structure Deferred where
  op : ChurnOp := {}
  entry : Nat := 0
  failed : Bool := false
deriving DecidableEq, Repr

/-- A chunk in use: its owner, and whether it is marked for return (R54, R67). -/
structure Chunk where
  e : Nat
  marked : Bool := false
deriving DecidableEq, Repr

/-- An entry's open chunk in a churn and the next free sector in it (R55). -/
structure OpenChunk where
  c : Nat
  next : Nat
deriving DecidableEq, Repr

/-- The data of one piece of a block read: block of the unit, byte offset, and the bytes once they
arrive; `bad` says that the read failed (R146). -/
structure Part where
  blk : Nat
  off : Nat
  len : Nat
  data : Option (List Byte) := none
  bad : Bool := false
deriving DecidableEq, Repr

/-- A block of a unit whose map entry is known: the entry, and its restored bytes once they are there. -/
structure Blk where
  i : Nat
  map : Word
  data : Option (List Byte) := none
deriving DecidableEq, Repr

/-- A unit of delivery on its way out of a churn: a frame, or a row of an index-driven op (R252).
`u` is its place in the churn's order, `q` the local frame it reads, `i` the blocks asked for and
`bytes` their stored bytes (R261); `stage` is 0 while it is read, 1 in its chain, 2 when `out` holds its
delivered form, of which `off` bytes have been delivered; `g0` is its first element in the tensor. `vals` and `fl`
are the lane values with their overflow and non-finite marks, `step` the next step of the chain, `asked` says that
its row sums are out, and `stat` holds the row results formed from it alone: row, m32, rstd (R177). -/
structure FUnit where
  u : Nat
  q : Nat
  g0 : Nat := 0
  i : Nat := 0
  bytes : Nat := 0
  blks : List Blk := []
  parts : List Part := []
  stage : Nat := 0
  step : Nat := 0
  vals : List (BitVec 32) := []
  fl : List (Bool × Bool) := []
  asked : Bool := false
  stat : List (Nat × BitVec 32 × BitVec 32) := []
  out : List Byte := []
  off : Nat := 0
deriving DecidableEq, Repr

/-- A run of gradient elements of one region frame on its way through the update engine (R295): the
frame, the first element, the gradients, the plane bytes read so far (plane, piece, bytes), the pieces asked for,
and, for an embedding row, whether the planes have been asked for after the stamps, and the elements of it that are updated. -/
structure USeg where
  frame : Nat
  e0 : Nat
  k : Nat
  grads : List (BitVec 32) := []
  fed : Bool := false
  got : List (Nat × Nat × List Byte) := []
  want : Nat := 0
  issued : Bool := false
  pos : Nat := 0
deriving DecidableEq, Repr

/-- An op a churn has dispatched. The first group is copied at dispatch or start (R15, R181, R191, R207,
R256, R298); the second is the inbound side (R246): bytes accepted, bytes not yet converted, local frames
converted, stored bytes not yet cut into blocks, blocks stored; the third the outbound side (R248, R261):
units begun, in progress and delivered, and tiles written; the row results held until those of the rows before them are
delivered, and the bytes of output that have no place of their own written so far (R184, R251); the marks of unfinished tiles: unit,
stream, tile, overflow and non-finite (R195, R196); then the segments of an update op, the frame and element up to which it has asked for
state (R295), the element being also how far ROWDOT has come in its frame, and the marks its
frames have gathered (frame, elements done, overflow, non-finite), and of a re-encode the old chunks with the last block read from each,
those given back, the new ones, and the map words still to install and the old ones they replaced (R76, R79); the last the once-per-op
reports, the lost map lines (R146), and the data credits withheld from a stalled stream-in (R78). -/
structure RunOp where
  op : ChurnOp := {}
  started : Bool := false
  aborted : Bool := false
  barrier : Bool := false
  banks : BitVec 8 := 0
  usesF : Bool := false
  compat : Bool := false
  key : Word := 0
  step : Word := 0
  steps : Word := 0
  param : Word := 0
  rule : List Word := []
  refused : Bool := false
  acc : Nat := 0
  inbuf : List Byte := []
  cq : Nat := 0
  sto : List Byte := []
  blk : Nat := 0
  flushed : Bool := false
  uRd : Nat := 0
  units : List FUnit := []
  uDone : Nat := 0
  tiles : Nat := 0
  acc2 : Nat := 0
  inbuf2 : List Byte := []
  rowHeld : List (Nat × List Byte) := []
  outPos : Nat := 0
  marks : List (Nat × Nat × Nat × Bool × Bool) := []
  usegs : List USeg := []
  aheadQ : Nat := 0
  aheadE : Nat := 0
  ftiles : List (Nat × Nat × Bool × Bool) := []
  olds : List (Nat × Nat) := []
  given : List Nat := []
  news : List Nat := []
  newMap : List Word := []
  oldMap : List Word := []
  kept : Nat := 0
  badLines : List Nat := []
  nonfin : Bool := false
  cancel : Bool := false
  divFloor : Bool := false
  fault : Bool := false
deriving DecidableEq, Repr

/-- A partial sum of a row segment, or the row's result, on the hub mesh (R176, R177). -/
structure RowFlit where
  id : Nat
  step : Nat
  row : Nat
  seg : Nat
  home : BitVec 5
  s1 : BitVec 80
  s2 : BitVec 80
  dst : Option (BitVec 5) := none
  m : BitVec 32 := 0
  rstd : BitVec 32 := 0
  arrived : Bool := false
deriving DecidableEq, Repr

/-- Generation states (R149). -/
inductive GSt where
  | free | live | draining
deriving DecidableEq, Repr

/-- A codebook or function-table command on its way: its OP and the churns that have not applied it, which were in SLEEP
or OFF when it was written and are waking (R151, R208, R356). -/
structure TabJob where
  op : Nat := 0
  left : BitVec 32 := 0
deriving DecidableEq, Repr

/-- A rennet-table generation in a churn: state, REFCNT and the 68 words of its image (R137, R149). -/
structure Gen where
  st : GSt := .free
  refs : BitVec 20 := 0
  img : List Word := []
deriving DecidableEq, Repr

/-- The generation tag of an entry in a churn (R149); NONE is the absence of a tag. -/
inductive Tag where
  | none | retired | gen (g : BitVec 4)
deriving DecidableEq, Repr

/-- The two banks of a function table: an image, or nothing loaded (R207, R211). -/
structure Bank where
  a : Option (List Word) := none
  b : Option (List Word) := none
deriving DecidableEq, Repr

/-- A vector slot: type and elements (R186). -/
structure VSlot where
  f32 : Bool := false
  v : List (BitVec 32) := []
deriving DecidableEq, Repr

/-- A line of the block-map cache: its stack-local address in 64 B units, its eight map entries, and
whether it is dirty and for which entry (R60, R61). -/
structure MapLine where
  key : Nat
  e : Nat
  w : List Word
  dirty : Bool
deriving DecidableEq, Repr

/-- A record of the flag log (R196). -/
structure FlagRec where
  stream : BitVec 24
  op : Byte
  unit : BitVec 3
  tile : BitVec 40
  ovf : Bool
  nonfin : Bool
deriving DecidableEq, Repr

/-- Churn power states (R356). -/
inductive PSt where
  | active | idle | sleep | off
deriving DecidableEq, Repr

/-- Address spaces a transfer reads or writes (R217), bytes the block itself supplies or discards, the
control section of a snapshot (R326), sealed peer units (R338, R339), a covered host range that is opened (R335), and the
blocks of an entry in churn `n` from block `i` on (R71). -/
inductive Space where
  | lit | loc (n : BitVec 5) | dpa | fab (n : BitVec 5) | hba | peer | csp | ctl | sealed | cov
  | blk (n : BitVec 5) (e i : Nat)
deriving DecidableEq, Repr

/-- A contiguous piece of one side of a transfer. For `sealed` and `cov`, `addr` is the address of unit 0 of the range and
`off` counts the bytes of its stream already passed. -/
structure Piece where
  sp : Space
  addr : Nat
  len : Nat
  off : Nat := 0
  lit : List Byte := []
deriving DecidableEq, Repr

/-- A channel descriptor, words 0 to 5 (R216). -/
structure Dsc where
  src : Word := 0
  dst : Word := 0
  len : Word := 0
  cfg : Word := 0
  sgl : Word := 0
  sig : Word := 0
deriving DecidableEq, Repr

/-- What the inline cipher does to a transfer (R334, R335, R338, R339). -/
inductive Cover where
  | clear | sealHba | openHba | sealPeer | openPeer
deriving DecidableEq, Repr

/-- The progress of a transfer (R222, R223, R230). `src` and `dst` are the pieces still to read and to
write; `rpos` counts source bytes asked for and `apos` those taken in order, `arr` holds bytes that came
early; `raw` waits for the swap or the cipher, `out` for its write; `wpos` counts destination bytes whose
write is issued. `base` is the position the transfer (re)started at. `fails` holds the positions of failed writes and
`failing` says that no more is issued. `swap` is the unit of the byte swap. `sgn` is the next list element, `sgl` the
bytes its side still lacks, `sgs` where each element begins, `sgEnd` that the last one is known. `bars` are the
read-backs owed and `last` the last byte written; `barred` says that the read-back of BAR has been asked for, `barOk` that it
answered OK, `sigd` that the completion signal has been sent (R226). `bounced` counts the bytes in each peer region and `met` names
the regions that list elements have met (R284, R285). `skip` is how many bytes of the first swap unit read were written before the
transfer resumed. For the cipher: the slot, one past the last unit, the unit next to treat, the address of unit 0; the tag entries,
of every unit sealed so far or of the group being opened; the first physical unit written; and, for a resumed transfer, that it
begins with the tag unit of a group whose data units are all written (R335). -/
structure Xfer where
  src : List Piece := []
  dst : List Piece := []
  rpos : Nat := 0
  arr : SMap (List Byte) := []
  apos : Nat := 0
  raw : List Byte := []
  out : List Byte := []
  wpos : Nat := 0
  base : Nat := 0
  fails : List Nat := []
  failing : Bool := false
  swap : Nat := 1
  sgn : Nat := 0
  sgl : Nat := 0
  sgs : List (Nat × Nat) := []
  sgEnd : Bool := false
  bars : List (Space × Nat) := []
  cover : Cover := .clear
  slot : BitVec 3 := 0
  unit : Nat := 0
  uend : Nat := 0
  ubase : Nat := 0
  tags : List Byte := []
  bounced : SMap Nat := []
  met : List Nat := []
  last : Option (Space × Nat) := none
  barred : Bool := false
  barOk : Bool := false
  sigd : Bool := false
  skip : Nat := 0
  phys : Nat := 0
  tagDue : Bool := false
deriving DecidableEq, Repr

/-- Channel states (R233). -/
inductive ChSt where
  | idle | queued | active | halted | aborting
deriving DecidableEq, Repr

/-- What a system channel works for (R214); `gone` is what is left of the spill (`out`) or recall of an entry that a rollback freed
(R319). -/
inductive Job where
  | none | gone (out : Bool) | hmv (desc : Nat) | spill (e : Nat) (ladder : Bool) | recall (e : Nat) | load (r : BitVec 4) | move (r : BitVec 4)
deriving DecidableEq, Repr

/-- A mover channel (R216, R230, R233). `stamp` orders waiting channels of one priority (R235). -/
structure Chan where
  sh : Dsc := {}
  act : Dsc := {}
  st : ChSt := .idle
  err : BitVec 4 := 0
  dir : Bool := false
  pend : Bool := false
  abt : Bool := false
  flt : Bool := false
  done : Bool := false
  sgidx : BitVec 16 := 0
  resid : BitVec 40 := 0
  erraddr : Word := 0
  x : Xfer := {}
  job : Job := .none
  stamp : Nat := 0
  runs : Nat := 0
deriving DecidableEq, Repr

/-- A churn. -/
structure Churn where
  pwr : PSt := .off
  waking : Bool := false
  /-- The write-backs before SLEEP are on their way (R357). -/
  sleepy : Bool := false
  lgup : BitVec 16 := 0
  duty : BitVec 3 := 0
  est : BitVec 16 := 0
  temp : Byte := 0
  credit : BitVec 9 := 256
  coming : List ChurnOp := []
  queue : List ChurnOp := []
  run : List RunOp := []
  chunks : SMap Chunk := []
  opens : SMap OpenChunk := []
  lines : List MapLine := []
  /-- Map words whose lines are being filled: entry, index, word (R60). -/
  mapPend : List (Nat × Nat × Word) := []
  tags : SMap Tag := []
  sects : SMap Nat := []
  gens : Vector Gen 16 := Vector.replicate 16 {}
  banks : Vector Bank 8 := Vector.replicate 8 {}
  active : BitVec 8 := 0
  vslots : Vector VSlot 8 := Vector.replicate 8 {}
  loc : SMap (List Byte) := []
  pails : Vector Chan 8 := Vector.replicate 8 {}
  /-- The queue in front of MPn_REQ last granted at each priority, plus 1 (R237). -/
  mpLast : SMap Nat := []
  fpLast : Nat := 0
  flags : List FlagRec := []
  lost : BitVec 16 := 0
  codecEvt : Word := 0
  codecErr : Word := 0
  fmtEvt : Word := 0
  arithEvt : Word := 0
  updEvt : Word := 0
  lag : Word := 0
  lslRaw : BitVec 48 := 0
  lslSect : BitVec 48 := 0
  whey : BitVec 48 := 0
deriving DecidableEq, Repr

/-- Ring states (R276, R277). -/
inductive RSt where
  | off | idle | fetching | executing | stalled
deriving DecidableEq, Repr

/-- A command ring (R265 to R277): count, TAIL, the command in progress, whether it has begun (WAIT lets it) and started
(R272), the aon value of its valid fetch, its retry count, and the state of the access it waits on: `left` requests or the residue of
a channel, `bad` a failure, `ended` that a channel has ended, `got` the bytes read, `after` the commands and channels a
fence waits for; `gap` says that the next fetch is still to be issued; `closing` that the write that ends the command waits to be
issued (R275), `disabling` that the ring is OFF after it, and `renew` that the ring has been enabled again before it (R268); `serial`
numbers the commands. -/
structure Ring where
  count : Nat := 0
  tail : BitVec 16 := 0
  st : RSt := .off
  cdone : Bool := false
  doneCnt : BitVec 32 := 0
  cmd : List Word := []
  begun : Bool := false
  started : Bool := false
  aon : BitVec 56 := 0
  timedOut : Bool := false
  tries : Nat := 0
  gap : Bool := false
  left : Nat := 0
  bad : Bool := false
  got : SMap (List Byte) := []
  after : List (Nat × Nat) := []
  ended : Bool := false
  disabling : Bool := false
  closing : Bool := false
  renew : Bool := false
  serial : Nat := 0
deriving DecidableEq, Repr

/-- The last address written to a target on HBP or PP, for the next GLOBAL fence (R104, R283): whether ring commands and
host-owned channels wrote it or the program's own work, the port, the chip, and how far its read-back is: 0 not issued,
1 issued, 2 answered. -/
structure ReadBack where
  ring : Bool
  pp : Bool
  chip : BitVec 17
  addr : Nat
  st : Nat := 0
deriving DecidableEq, Repr

/-- A peer region's decided path (R284). -/
structure Region where
  ready : Bool := false
  bounce : Bool := false
  pstat : BitVec 4 := 0
  evt : BitVec 48 := 0
deriving DecidableEq, Repr

/-- A port's link and credits (R38 to R40, R47 to R49): credits the block holds for its sending
channel, the credits it has advertised for its receiving channel, and those of them a stalled churn keeps back
(R78). What the partner has left is `rxHdr` and `rxDat` less `owed` and the requests held in the bridges. -/
structure Port where
  outUp : Bool := false
  inUp : Bool := false
  everUp : Bool := false
  discard : Bool := false
  hdr : BitVec 16 := 0
  dat : BitVec 16 := 0
  rxHdr : Nat := 0
  rxDat : Nat := 0
  owed : Nat := 0
  /-- The link fell while fclk was stopped, and the hub does not know of it yet (R47, R353). -/
  fell : Bool := false
deriving DecidableEq, Repr

/-- A message the block drives on a channel (R28, R30). `attr` is HBP_MREQ_ATTR (R45). -/
structure Msg where
  port : PortId
  opc : BitVec 8
  tag : BitVec 16 := 0
  oc : BitVec 2 := 0
  stat : BitVec 4 := 0
  chip : BitVec 17 := 0
  len : Nat := 0
  addr : Word := 0
  attr : BitVec 2 := 0
  data : List Byte := []
deriving DecidableEq, Repr

/-- Who waits for the response of a request (R35). `gone` is a transfer that ended before its response came (R232). -/
inductive Owner where
  | blockRd (n : BitVec 5) (id u blk off : Nat)
  | mapRd (n : BitVec 5) (id line e : Nat)
  | store (n : BitVec 5) (id e blk : Nat) (m : Word)
  | mapWb (n : BitVec 5) (line e : Nat)
  | mapFw (n : BitVec 5) (line e : Nat)
  | memOut (n : BitVec 5) (id : Nat)
  | updRd (n : BitVec 5) (id frame e0 plane : Nat)
  | updWr (n : BitVec 5) (id : Nat)
  | chanRd (c : Nat) (pos : Nat)
  | chanWr (c : Nat) (pos : Nat)
  | chanBar (c : Nat)
  | chanSg (c : Nat)
  | ladleRd (r : BitVec 4) (off : Nat)
  | ladleWr (r : BitVec 4)
  | fetch (r : BitVec 4)
  | probe (k : BitVec 3)
  | sepBar (pp : Bool) (chip : BitVec 17)
  | ringBar (r : BitVec 4) (pp : Bool)
  | window (id off : Nat)
  | gone
deriving DecidableEq, Repr

/-- A non-posted request in flight (R34). -/
structure Flight where
  port : PortId
  tag : BitVec 16
  rd : Bool
  addr : Nat
  len : Nat
  owner : Owner
deriving DecidableEq, Repr

/-- A request waiting for credits or a tag (R21, R38, R237): the message, its owner if non-posted, the fclk cycle it came, and what
issued it where that matters: the number of a transfer, 400 + r for the write that ends ring r's command, or 416 + r for another write
to the destination of its LADLE_RD (R226, R236, R272, R275). -/
structure TxReq where
  m : Msg
  owner : Option Owner
  t : Nat := 0
  src : Option Nat := none
deriving DecidableEq, Repr

/-- What a partner's request to device memory ends with (R279, R338, R339): an answer, a unit to seal under a slot for its reader,
or the answers to the writes of a received unit. -/
inductive WinEnd where
  | plain | seal (slot : BitVec 3) | unit (wrs : List (BitVec 16))
deriving DecidableEq, Repr

/-- A request of a partner that the block performs at its memory ports (R280): its number, port, sender, class and tag, what is
read so far, the requests still unanswered, and the status so far. -/
structure WinReq where
  id : Nat
  port : PortId
  chip : BitVec 17 := 0
  oc : BitVec 2 := 0
  tag : BitVec 16 := 0
  rd : Bool := false
  posted : Bool := false
  addr : Nat := 0
  left : Nat := 0
  stat : BitVec 4 := 0
  got : SMap (List Byte) := []
  fin : WinEnd := .plain
deriving DecidableEq, Repr

/-- A unit sealed for a peer, kept until its eight reads are served (R339); `expired` says that its time is over. -/
structure SealCopy where
  chip : BitVec 17
  unit : BitVec 36
  data : List Byte
  served : Nat
  slot : BitVec 3
  expired : Bool := false
deriving DecidableEq, Repr

/-- A unit received from a peer, held for its seal record (R338), the tags of those of its writes that are owed an answer, and
the classes of its writes (R42). -/
structure HeldUnit where
  chip : BitVec 17
  unit : BitVec 36
  data : SMap (List Byte)
  wrs : List (BitVec 16)
  ocs : List (BitVec 2)
deriving DecidableEq, Repr

/-- The step protocol (R107, R311 to R319). `blk` gathers the causes of R314, `latched` is STEP_STAT.BLK, `inst` numbers
the step instances (R126), `sweep` says that a directory sweep is running, `rolling` that it is a rollback's, and
`flipped` that a held epcmt has flipped the step and waits for its snapshot's control section, and `backs` the read-backs it was done
with, for a STOP that takes it back (R111); `schEn` holds the schedules' EN as
epbeg found them (R307). -/
structure Step where
  step : Word := 0
  depoch : BitVec 16 := 0
  start : BitVec 16 := 0
  open_ : Bool := false
  inst : Nat := 0
  statStep : BitVec 32 := 0
  late : Bool := false
  blk : BitVec 3 := 0
  latched : BitVec 3 := 0
  ready : Bool := false
  pabt : Bool := false
  pcmt : Bool := false
  snapFlag : Bool := false
  due : Bool := false
  rdyIssued : Bool := false
  lastRdy : Bool := false
  sweep : Bool := false
  rolling : Bool := false
  flipped : Bool := false
  backs : List ReadBack := []
  schEn : BitVec 8 := 0
  cntCopy : List (BitVec 48) := List.replicate 8 0
  lr : List (BitVec 32) := List.replicate 8 0
deriving DecidableEq, Repr

/-- The snapshot and restore unit (R321 to R333). `cur` is the area being written or read, `phase` tells a restore's reading
of the header (0) from the rest (1), and `ctl` is the control section being written or read, by word. `was` holds SNAP_LAST, DUE and
ERR as a snapshot found them (R111). -/
structure Snap where
  last : BitVec 56 := 0
  area : Bool := false
  err : BitVec 4 := 0
  rbusy : Bool := false
  busy : Bool := false
  due : Bool := false
  cur : Bool := false
  x : Xfer := {}
  phase : Nat := 0
  ctl : SMap Word := []
  was : BitVec 56 × Bool × BitVec 4 := (0, false, 0)
deriving DecidableEq, Repr

/-- A key slot: its words and which have been written since it was last invalidated (R342). -/
structure Key where
  w : Vector Word 4 := Vector.replicate 4 0
  written : BitVec 4 := 0
  valid : Bool := false
deriving DecidableEq, Repr

/-- An entry of the change log (R349). -/
structure LogEnt where
  w0 : Word := 0
  w1 : Word := 0
  old : Word := 0
  new : Word := 0
deriving DecidableEq, Repr

/-- Commands of the non-volatile store (R347). -/
inductive NvOp where
  | erase | program | read
deriving DecidableEq, Repr

/-- The non-volatile store (R345 to R348): its bytes, an absent one reading as 0xFF (log entry 9); `torn` says that power was
lost during an ERASE or PROGRAM, and `vdd` that VDD_NVM is present. -/
structure Nv where
  mem : List Host.Cell := []
  busy : Option (NvOp × Nat) := none
  err : BitVec 4 := 0
  skip : BitVec 12 := 0
  src : Bool := false
  boot : BitVec 23 := 0
  vdd : Bool := true
  torn : Bool := false
deriving DecidableEq, Repr

/-- Clocks, resets, supplies and start-up (R351 to R368): `cold` and `warm` say that a reset is asserted, `aonLow` that VDD_AON
is too low, `warmStart` that the start-up is a warm one; `ref` that REFCLK runs, `aonWaking` that the PLL was started to leave
the aon-only state, `droop` that VDD_CORE is low; `now` counts fclk cycles, `sub` those of the present aon tick, and `pll` is
PLL_CFG as the PLL was started with it. -/
structure Sys where
  cold : Bool := true
  warm : Bool := false
  warmStart : Bool := false
  phase : BitVec 4 := 0
  lock : Bool := false
  ref : Bool := true
  refloss : Bool := false
  cfgerr : Bool := false
  locked : Bool := false
  aons : Bool := false
  aonLow : Bool := false
  aonWaking : Bool := false
  droop : Bool := false
  /-- The PAIL bits of CH_SUM that a warm reset kept (R379). -/
  pailSum : BitVec 32 := 0
  aon : BitVec 56 := 0
  sub : Nat := 0
  now : Nat := 0
  pll : Word := 0x50
  below : Nat := 0
  blockEst : BitVec 16 := 0
  capEvt : BitVec 3 := 0
  mode : BitVec 3 := 0
deriving DecidableEq, Repr

/-- A fault's record (R376). -/
structure FltRec where
  cnt : BitVec 32 := 0
  what : Word := 0
  info : Word := 0
  time : BitVec 56 := 0
deriving DecidableEq, Repr

/-- Cost counters of the hub (R129). -/
structure Plan where
  rawIn : BitVec 48 := 0
  sectIn : BitVec 48 := 0
  sectFetch : BitVec 48 := 0
  coldOut : BitVec 48 := 0
  coldIn : BitVec 48 := 0
  tktFail : BitVec 32 := 0
  tktIssued : BitVec 32 := 0
  latSum : BitVec 48 := 0
  latMax : BitVec 32 := 0
  defer : BitVec 48 := 0
  freeMin : BitVec 17 := 0x1FFFF
  wait : Vector (BitVec 48) 16 := Vector.replicate 16 0
deriving DecidableEq, Repr

/-- The block: everything the manual gives it to hold. -/
structure State where
  /-- Commands waiting, first in, first out (the model's own). -/
  pending : List Instr
  /-- Requests held in the port bridges (R26, R246). -/
  bridges : List Instr
  /-- The registers that only store, by control-space offset; an absent offset holds its reset value (R384). -/
  regs : SMap Word
  sep : Sep
  imem : SMap Word
  dmem : List Host.Cell
  tickets : SMap Ticket
  deferred : SMap Deferred
  dir : SMap Entry
  dirData : List Word
  hasCellar : Bool
  cold : SMap Nat
  ladder : Ladder
  celEvt : Vector (BitVec 32) 5
  churns : Vector Churn 32
  tasks : List Task
  nextId : Nat
  flits : List RowFlit
  ctxs : SMap Ctx
  ctxStat : Word
  ctxProg : BitVec 40
  ctxRel : BitVec 40
  strmFlt : Word
  pairs : SMap Pair
  layerStart : Option Nat
  /-- Whether a LAYER_START has arrived, so that PACE_LT counts (R259). -/
  paceOn : Bool
  paceLayer : BitVec 16
  paceCyc : BitVec 48
  paceMiss : Word
  paceEvt : BitVec 32
  hub : Vector Chan 64
  hmvBnc : BitVec 32
  sysWait : List Job
  stamp : Nat
  rings : Vector Ring 16
  /-- The ring whose command was fetched last (R266). -/
  lastFetch : Nat
  /-- At HBP (0) and PP (1), the hub engine that is served next (R236). -/
  hubLast : SMap Nat
  readback : List ReadBack
  regions : Vector Region 8
  irqReq : BitVec 8
  irqPend : BitVec 8
  irqOut : BitVec 8
  ports : Vector Port 68
  inflight : List Flight
  late : List (PortId × BitVec 16)
  txq : List TxReq
  /-- Non-posted requests that completed inside the block because their link was down (R390). -/
  dead : List Flight
  sent : List Msg
  holds : SMap Nat
  step : Step
  snap : Snap
  keys : Vector Key 8
  nctr : BitVec 56
  cryptErr : Word
  cryptEvt : Word
  wins : List WinReq
  copies : List SealCopy
  units : List HeldUnit
  peerFail : List (BitVec 17)
  nv : Nv
  log : SMap LogEnt
  logTotal : BitVec 48
  clData : List Word
  sys : Sys
  flt : BitVec 24
  /-- FLT_STAT as it was at the start of the present cycle (R376). -/
  fltWas : BitVec 24
  flts : Vector FltRec 24
  evt : BitVec 2
  plan : Plan
  cbStat : Word
  ftStat : Word
  cbJob : TabJob
  ftJob : TabJob
  ftCrc : BitVec 32
  /-- The counter that free values are applied to (the model's own). -/
  freeCtr : Nat
deriving DecidableEq, Repr

/-- The separator after cold reset (R80). -/
def Sep.reset : Sep :=
  { g := Vector.replicate 64 0, t := Vector.replicate 16 {}, p := 0, pc := 0, st := .halted, wait := 0,
    inh := false, held := none, stepping := false, lfTmo := 0, mapStall := none,
    cyc := 0, layer := 0, astat := 0, trap := 0 }

/-- The block while cold reset is asserted, after it took effect (R364, R365): every register at the
value of R384. Where the manual gives no value, log entry 8 names the one taken. -/
def State.reset : State :=
  { pending := [], bridges := [], regs := [], sep := Sep.reset, imem := [], dmem := [], tickets := [],
    deferred := [], dir := [], dirData := [0, 0, 0, 0], hasCellar := false, cold := [], ladder := {},
    celEvt := Vector.replicate 5 0, churns := Vector.replicate 32 {}, tasks := [], nextId := 0, flits := [],
    ctxs := [], ctxStat := 0, ctxProg := 0, ctxRel := 0, strmFlt := 0, pairs := [],
    layerStart := none, paceOn := false, paceLayer := 0, paceCyc := 0, paceMiss := 0, paceEvt := 0,
    hub := Vector.replicate 64 {}, hmvBnc := 0, sysWait := [], stamp := 0, rings := Vector.replicate 16 {},
    lastFetch := 15, hubLast := [], readback := [], regions := Vector.replicate 8 {}, irqReq := 0, irqPend := 0, irqOut := 0,
    ports := Vector.replicate 68 {}, inflight := [], late := [], txq := [], dead := [], sent := [], holds := [],
    step := {}, snap := {}, keys := Vector.replicate 8 {}, nctr := 0, cryptErr := 0, cryptEvt := 0,
    wins := [], copies := [], units := [], peerFail := [], nv := {}, log := [], logTotal := 0, clData := [0, 0, 0, 0],
    sys := {}, flt := 0, fltWas := 0, flts := Vector.replicate 24 {}, evt := 0, plan := {}, cbStat := 0, ftStat := 0,
    cbJob := {}, ftJob := {},    ftCrc := 0, freeCtr := 0 }

end Sys2Proof.Machine
end

