-- ==== Sys2Proof/Machine/RegMap.lean ====
section
/-! DEFINITION. The register map: every register, its offset, its writable bits, its reset value and whether it is logged (R382 to R389). -/

namespace Sys2Proof.Machine

/-- The registers of the map, and the words of the separator memories. Arguments are indices, the churn
first. `chan c k` is word k of a channel's block: 0 to 5 the descriptor, 6 CTL, 7 STAT, 8 RESID, 9 ERRADDR. -/
inductive Reg where
  /-- VERSION. -/
  | version
  /-- CHIP_ID. -/
  | chipId
  /-- SYS_CTL. -/
  | sysCtl
  /-- SYS_STAT. -/
  | sysStat
  /-- MODE_CTL. -/
  | modeCtl
  /-- MODE_STAT. -/
  | modeStat
  /-- PLL_CFG. -/
  | pllCfg
  /-- AON_CNT. -/
  | aonCnt
  /-- WAKE_AT. -/
  | wakeAt
  /-- PWR_CAP. -/
  | pwrCap
  /-- PWR_STAT. -/
  | pwrStat
  /-- THERM_CFG. -/
  | thermCfg
  /-- FL_TMO. -/
  | flTmo
  /-- FLT_STAT. -/
  | fltStat
  /-- IRQ_PEND. -/
  | irqPend
  /-- IRQ_STAT. -/
  | irqStat
  /-- EVT_STAT. -/
  | evtStat
  /-- HMV_IRQ. -/
  | hmvIrq
  /-- CH_SUM. -/
  | chSum
  /-- IRQ_MAP. -/
  | irqMap (i : Nat)
  /-- IRQ_MSG_ADDR. -/
  | irqMsgAddr (i : Nat)
  /-- IRQ_MSG_CTL. -/
  | irqMsgCtl (i : Nat)
  /-- FLT_CNT. -/
  | fltCnt (i : Nat)
  /-- FLT_REC. -/
  | fltRec (i : Nat)
  /-- FLT_INFO. -/
  | fltInfo (i : Nat)
  /-- FLT_TIME. -/
  | fltTime (i : Nat)
  /-- SEP_CTL. -/
  | sepCtl
  /-- SEP_STAT. -/
  | sepStat
  /-- SEP_PC. -/
  | sepPc
  /-- SEP_TRAP. -/
  | sepTrap
  /-- LF_TMO. -/
  | lfTmo
  /-- ILV_CTL. -/
  | ilvCtl
  /-- CEL_BASE. -/
  | celBase
  /-- CEL_SIZE. -/
  | celSize
  /-- CEL_MAP. -/
  | celMap
  /-- CEL_WM. -/
  | celWm
  /-- CEL_LADDER. -/
  | celLadder
  /-- CEL_STAT. -/
  | celStat
  /-- CEL_MAP_FREE. -/
  | celMapFree
  /-- COLD_BASE. -/
  | coldBase
  /-- COLD_SIZE. -/
  | coldSize
  /-- COLD_FREE. -/
  | coldFree
  /-- DIR_SEL. -/
  | dirSel
  /-- DIR_DATA. -/
  | dirData (i : Nat)
  /-- CEL_EVT_REENC. -/
  | celEvtReenc
  /-- CEL_EVT_SPILL. -/
  | celEvtSpill
  /-- CEL_EVT_DROP. -/
  | celEvtDrop
  /-- CEL_EVT_STALL. -/
  | celEvtStall
  /-- CEL_EVT_RECALL_FETCH. -/
  | celEvtRecallFetch
  /-- PLAN_CTL. -/
  | planCtl
  /-- PLAN_RAW_IN. -/
  | planRawIn
  /-- PLAN_SECT_IN. -/
  | planSectIn
  /-- PLAN_SECT_FETCH. -/
  | planSectFetch
  /-- PLAN_COLD_OUT. -/
  | planColdOut
  /-- PLAN_COLD_IN. -/
  | planColdIn
  /-- PLAN_TKT. -/
  | planTkt
  /-- PLAN_TKT_LAT_SUM. -/
  | planTktLatSum
  /-- PLAN_TKT_LAT_MAX. -/
  | planTktLatMax
  /-- PLAN_DEFER. -/
  | planDefer
  /-- PLAN_FREE_MIN. -/
  | planFreeMin
  /-- PLAN_WAIT_CYC. -/
  | planWaitCyc (i : Nat)
  /-- CB_CMD. -/
  | cbCmd
  /-- CB_STAT. -/
  | cbStat
  /-- CB_REENC. -/
  | cbReenc
  /-- CB_STAGE. -/
  | cbStage (i : Nat)
  /-- SFU_CFG. -/
  | sfuCfg
  /-- FT_CMD. -/
  | ftCmd
  /-- FT_STAT. -/
  | ftStat
  /-- FT_CRC. -/
  | ftCrc
  /-- FT_STAGE. -/
  | ftStage (i : Nat)
  /-- DRAW_KEY. -/
  | drawKey
  /-- CHAIN_STEPS. -/
  | chainSteps (i : Nat)
  /-- CHAIN_PARAM. -/
  | chainParam (i : Nat)
  /-- CTX_SEL. -/
  | ctxSel
  /-- CTX_CMD. -/
  | ctxCmd
  /-- CTX_STAT. -/
  | ctxStat
  /-- CTX_PROG. -/
  | ctxProg
  /-- CTX_REL. -/
  | ctxRel
  /-- PACE_LT. -/
  | paceLt
  /-- PACE_MISS. -/
  | paceMiss
  /-- PACE_EVT. -/
  | paceEvt
  /-- STRM_FLT. -/
  | strmFlt
  /-- CTX_DATA. -/
  | ctxData (i : Nat)
  /-- STRIPE_WT. -/
  | stripeWt (i j : Nat)
  /-- SEM_VAL. -/
  | semVal (i : Nat)
  /-- MV_HOWN. -/
  | mvHown
  /-- MV_CFG. -/
  | mvCfg
  /-- HMV_BNC. -/
  | hmvBnc
  /-- CMD_RETRY. -/
  | cmdRetry
  /-- CMD_TMO. -/
  | cmdTmo
  /-- WIN_BASE. -/
  | winBase
  /-- HB_CFG. -/
  | hbCfg
  /-- HB_RID. -/
  | hbRid
  /-- RING_BASE. -/
  | ringBase (i : Nat)
  /-- RING_CFG. -/
  | ringCfg (i : Nat)
  /-- RING_DB. -/
  | ringDb (i : Nat)
  /-- RING_STAT. -/
  | ringStat (i : Nat)
  /-- RING_DONE. -/
  | ringDone (i : Nat)
  /-- P2P_BASE. -/
  | p2pBase (i : Nat)
  /-- P2P_CTL. -/
  | p2pCtl (i : Nat)
  /-- P2P_BNC. -/
  | p2pBnc (i : Nat)
  /-- P2P_STAT. -/
  | p2pStat (i : Nat)
  /-- P2P_EVT. -/
  | p2pEvt (i : Nat)
  /-- PRM_BUF0. -/
  | prmBuf0 (i : Nat)
  /-- PRM_BUF1. -/
  | prmBuf1 (i : Nat)
  /-- PRM_CFG. -/
  | prmCfg (i : Nat)
  /-- PRM_SIZE. -/
  | prmSize (i : Nat)
  /-- PRM_HOLD. -/
  | prmHold (i : Nat)
  /-- UPD_RULE. -/
  | updRule (i j : Nat)
  /-- SCHED_CFG. -/
  | schedCfg (i : Nat)
  /-- SCHED_VAL. -/
  | schedVal (i : Nat)
  /-- SCHED_RF. -/
  | schedRf (i : Nat)
  /-- SCHED_CNT. -/
  | schedCnt (i : Nat)
  /-- SCHED_LR. -/
  | schedLr (i : Nat)
  /-- STEP_RPT. -/
  | stepRpt
  /-- STEP_CMD. -/
  | stepCmd
  /-- STEP_STAT. -/
  | stepStat
  /-- SNAP_INTERVAL. -/
  | snapInterval
  /-- SNAP_LAST. -/
  | snapLast
  /-- SNAP_CTL. -/
  | snapCtl
  /-- SNAP_CMD. -/
  | snapCmd
  /-- SNAP_STAT. -/
  | snapStat
  /-- SNAP_DPOS. -/
  | snapDpos
  /-- SNAP_AREA. -/
  | snapArea (i : Nat)
  /-- SNAP_ASIZE. -/
  | snapAsize (i : Nat)
  /-- CRYPT_CFG. -/
  | cryptCfg
  /-- CRYPT_ERR. -/
  | cryptErr
  /-- CRYPT_EVT. -/
  | cryptEvt
  /-- CRYPT_NCTR. -/
  | cryptNctr
  /-- KEY_CTL. -/
  | keyCtl
  /-- KEY_SLOT. -/
  | keySlot (i j : Nat)
  /-- NV_CMD. -/
  | nvCmd
  /-- NV_STAT. -/
  | nvStat
  /-- NV_PAGE. -/
  | nvPage (i : Nat)
  /-- CL_SEL. -/
  | clSel
  /-- CL_STAT. -/
  | clStat
  /-- CL_DATA. -/
  | clData (i : Nat)
  /-- CH_STAT. -/
  | chStat (n : Nat)
  /-- CH_PWR_CTL. -/
  | chPwrCtl (n : Nat)
  /-- CH_PWR_STAT. -/
  | chPwrStat (n : Nat)
  /-- CH_PWR_ST. -/
  | chPwrSt (n : Nat)
  /-- CH_MPQ_PRI. -/
  | chMpqPri (n : Nat)
  /-- CH_MPQ_AGE. -/
  | chMpqAge (n : Nat)
  /-- CH_LAG. -/
  | chLag (n : Nat)
  /-- CH_CEL_FREE. -/
  | chCelFree (n : Nat)
  /-- CH_CEL_OWNED. -/
  | chCelOwned (n : Nat)
  /-- CH_PLAN_LSL_RAW. -/
  | chPlanLslRaw (n : Nat)
  /-- CH_PLAN_LSL_SECT. -/
  | chPlanLslSect (n : Nat)
  /-- CH_PLAN_WHEY. -/
  | chPlanWhey (n : Nat)
  /-- CH_CODEC_EVT. -/
  | chCodecEvt (n : Nat)
  /-- CH_CODEC_ERR. -/
  | chCodecErr (n : Nat)
  /-- CH_CB_STATE. -/
  | chCbState (n i : Nat)
  /-- CH_FMT_EVT. -/
  | chFmtEvt (n : Nat)
  /-- CH_ARITH_EVT. -/
  | chArithEvt (n : Nat)
  /-- CH_FT_BANK. -/
  | chFtBank (n : Nat)
  /-- CH_AFLAG_STAT. -/
  | chAflagStat (n : Nat)
  /-- CH_AFLAG_HEAD. -/
  | chAflagHead (n : Nat)
  /-- CH_AFLAG_TILE. -/
  | chAflagTile (n : Nat)
  /-- CH_AFLAG_CTL. -/
  | chAflagCtl (n : Nat)
  /-- CH_VSLOT. -/
  | chVslot (n i : Nat)
  /-- CH_UPD_EVT. -/
  | chUpdEvt (n : Nat)
  /-- A word of a channel's register block (R216, R233). -/
  | chan (c : ChanId) (k : Nat)
  /-- A word of separator instruction memory (R112). -/
  | imem (i : Nat)
  /-- A word of separator data memory (R92). -/
  | dmem (i : Nat)

/-- What the map says of a register: bits stored by a write, bits stored until STARTUP first ends,
reset value, and whether every write is logged (R8, R384). -/
structure RegD where
  rw : Word := 0
  rwl : Word := 0
  reset : Word := 0
  log : Bool := false
deriving DecidableEq, Repr

/-- The base of churn n's window (R382). -/
def churnBase (n : Nat) : Nat := 0x400000 + n * 0x100000

/-- The offset of a channel's block (R382). -/
def chanBase : ChanId → Nat
  | .hub c => 0x21000 + 0x80 * c.toNat
  | .pail n c => churnBase n.toNat + 0x8000 + 0x80 * c.toNat

/-- The offset of a register. -/
def Reg.off : Reg → Nat
  | .version => 0x0
  | .chipId => 0x8
  | .sysCtl => 0x10
  | .sysStat => 0x18
  | .modeCtl => 0x20
  | .modeStat => 0x28
  | .pllCfg => 0x30
  | .aonCnt => 0x38
  | .wakeAt => 0x40
  | .pwrCap => 0x48
  | .pwrStat => 0x50
  | .thermCfg => 0x58
  | .flTmo => 0x60
  | .fltStat => 0x1000
  | .irqPend => 0x1008
  | .irqStat => 0x1010
  | .evtStat => 0x1018
  | .hmvIrq => 0x1020
  | .chSum => 0x1028
  | .irqMap i => 0x1040 + 8 * i
  | .irqMsgAddr i => 0x1080 + 8 * i
  | .irqMsgCtl i => 0x10c0 + 8 * i
  | .fltCnt i => 0x1100 + 8 * i
  | .fltRec i => 0x1200 + 8 * i
  | .fltInfo i => 0x1300 + 8 * i
  | .fltTime i => 0x1400 + 8 * i
  | .sepCtl => 0x2000
  | .sepStat => 0x2008
  | .sepPc => 0x2010
  | .sepTrap => 0x2018
  | .lfTmo => 0x2020
  | .ilvCtl => 0x3000
  | .celBase => 0x3008
  | .celSize => 0x3010
  | .celMap => 0x3018
  | .celWm => 0x3020
  | .celLadder => 0x3028
  | .celStat => 0x3030
  | .celMapFree => 0x3038
  | .coldBase => 0x3040
  | .coldSize => 0x3048
  | .coldFree => 0x3050
  | .dirSel => 0x3058
  | .dirData i => 0x3060 + 8 * i
  | .celEvtReenc => 0x3080
  | .celEvtSpill => 0x3088
  | .celEvtDrop => 0x3090
  | .celEvtStall => 0x3098
  | .celEvtRecallFetch => 0x30a0
  | .planCtl => 0x4000
  | .planRawIn => 0x4008
  | .planSectIn => 0x4010
  | .planSectFetch => 0x4018
  | .planColdOut => 0x4020
  | .planColdIn => 0x4028
  | .planTkt => 0x4030
  | .planTktLatSum => 0x4038
  | .planTktLatMax => 0x4040
  | .planDefer => 0x4048
  | .planFreeMin => 0x4050
  | .planWaitCyc i => 0x4080 + 8 * i
  | .cbCmd => 0x5000
  | .cbStat => 0x5008
  | .cbReenc => 0x5010
  | .cbStage i => 0x5400 + 8 * i
  | .sfuCfg => 0x6000
  | .ftCmd => 0x6008
  | .ftStat => 0x6010
  | .ftCrc => 0x6018
  | .ftStage i => 0x8000 + 8 * i
  | .drawKey => 0xc000
  | .chainSteps i => 0xc800 + 8 * i
  | .chainParam i => 0xd000 + 8 * i
  | .ctxSel => 0x10000
  | .ctxCmd => 0x10008
  | .ctxStat => 0x10010
  | .ctxProg => 0x10018
  | .ctxRel => 0x10020
  | .paceLt => 0x10028
  | .paceMiss => 0x10030
  | .paceEvt => 0x10038
  | .strmFlt => 0x10040
  | .ctxData i => 0x10080 + 8 * i
  | .stripeWt i j => 0x10100 + 16 * i + 8 * j
  | .semVal i => 0x18000 + 8 * i
  | .mvHown => 0x20000
  | .mvCfg => 0x20008
  | .hmvBnc => 0x20010
  | .cmdRetry => 0x30000
  | .cmdTmo => 0x30008
  | .winBase => 0x30010
  | .hbCfg => 0x30018
  | .hbRid => 0x30020
  | .ringBase i => 0x30100 + 0x40 * i
  | .ringCfg i => 0x30108 + 0x40 * i
  | .ringDb i => 0x30110 + 0x40 * i
  | .ringStat i => 0x30118 + 0x40 * i
  | .ringDone i => 0x30120 + 0x40 * i
  | .p2pBase i => 0x30800 + 0x40 * i
  | .p2pCtl i => 0x30808 + 0x40 * i
  | .p2pBnc i => 0x30810 + 0x40 * i
  | .p2pStat i => 0x30818 + 0x40 * i
  | .p2pEvt i => 0x30820 + 0x40 * i
  | .prmBuf0 i => 0x40000 + 0x40 * i
  | .prmBuf1 i => 0x40008 + 0x40 * i
  | .prmCfg i => 0x40010 + 0x40 * i
  | .prmSize i => 0x40018 + 0x40 * i
  | .prmHold i => 0x40020 + 0x40 * i
  | .updRule i j => 0x44000 + 0x40 * i + 8 * j
  | .schedCfg i => 0x45000 + 0x40 * i
  | .schedVal i => 0x45008 + 0x40 * i
  | .schedRf i => 0x45010 + 0x40 * i
  | .schedCnt i => 0x45018 + 0x40 * i
  | .schedLr i => 0x45020 + 0x40 * i
  | .stepRpt => 0x50000
  | .stepCmd => 0x50008
  | .stepStat => 0x50010
  | .snapInterval => 0x50018
  | .snapLast => 0x50020
  | .snapCtl => 0x50028
  | .snapCmd => 0x50030
  | .snapStat => 0x50038
  | .snapDpos => 0x50040
  | .snapArea i => 0x50080 + 16 * i
  | .snapAsize i => 0x50088 + 16 * i
  | .cryptCfg => 0x60000
  | .cryptErr => 0x60008
  | .cryptEvt => 0x60010
  | .cryptNctr => 0x60018
  | .keyCtl => 0x60020
  | .keySlot i j => 0x60100 + 0x20 * i + 8 * j
  | .nvCmd => 0x61000
  | .nvStat => 0x61008
  | .nvPage i => 0x61200 + 8 * i
  | .clSel => 0x62000
  | .clStat => 0x62008
  | .clData i => 0x62020 + 8 * i
  | .chStat n => churnBase n + 0x0
  | .chPwrCtl n => churnBase n + 0x8
  | .chPwrStat n => churnBase n + 0x10
  | .chPwrSt n => churnBase n + 0x18
  | .chMpqPri n => churnBase n + 0x20
  | .chMpqAge n => churnBase n + 0x28
  | .chLag n => churnBase n + 0x30
  | .chCelFree n => churnBase n + 0x1000
  | .chCelOwned n => churnBase n + 0x1008
  | .chPlanLslRaw n => churnBase n + 0x1010
  | .chPlanLslSect n => churnBase n + 0x1018
  | .chPlanWhey n => churnBase n + 0x1020
  | .chCodecEvt n => churnBase n + 0x2000
  | .chCodecErr n => churnBase n + 0x2008
  | .chCbState n i => churnBase n + 0x2080 + 8 * i
  | .chFmtEvt n => churnBase n + 0x3000
  | .chArithEvt n => churnBase n + 0x3008
  | .chFtBank n => churnBase n + 0x3010
  | .chAflagStat n => churnBase n + 0x3018
  | .chAflagHead n => churnBase n + 0x3020
  | .chAflagTile n => churnBase n + 0x3028
  | .chAflagCtl n => churnBase n + 0x3030
  | .chVslot n i => churnBase n + 0x3080 + 8 * i
  | .chUpdEvt n => churnBase n + 0x4000
  | .chan c k => chanBase c + 8 * k
  | .imem i => 0x3000000 + 8 * i
  | .dmem i => 0x3040000 + 8 * i

/-- What the map says of a register. -/
def Reg.desc : Reg → RegD
  | .version => { reset := 0x40000 }
  | .chipId => { rwl := 0x1ffff, log := true }
  | .sysCtl => { rwl := 0x8, log := true }
  | .sysStat => {}
  | .modeCtl => { rwl := 0x70, reset := 0x10, log := true }
  | .modeStat => {}
  | .pllCfg => { rwl := 0xf00ff, reset := 0x50, log := true }
  | .aonCnt => {}
  | .wakeAt => { rw := 0xffffffffffffff, log := true }
  | .pwrCap => { rw := 0xfff, log := true }
  | .pwrStat => {}
  | .thermCfg => { rw := 0xff, reset := 0x69, log := true }
  | .flTmo => { rw := 0xffffffffffff, reset := 0x7a04c50100, log := true }
  | .fltStat => {}
  | .irqPend => {}
  | .irqStat => {}
  | .evtStat => {}
  | .hmvIrq => {}
  | .chSum => {}
  | .irqMap _ => { rw := 0xffffffffffffffff, log := true }
  | .irqMsgAddr _ => { rw := 0xfffffffffffffffc, log := true }
  | .irqMsgCtl _ => { rw := 0xffffffff00000007, reset := 0x4, log := true }
  | .fltCnt _ => {}
  | .fltRec _ => {}
  | .fltInfo _ => {}
  | .fltTime _ => {}
  | .sepCtl => { rw := 0x7fff00000008, log := true }
  | .sepStat => {}
  | .sepPc => { rw := 0x7fff, log := true }
  | .sepTrap => {}
  | .lfTmo => { rw := 0xffffffff, reset := 0x2625, log := true }
  | .ilvCtl => { rwl := 0xffffffff, reset := 0xffffffff, log := true }
  | .celBase => { rwl := 0xfffffe000000, log := true }
  | .celSize => { rwl := 0x1ffff, log := true }
  | .celMap => { rwl := 0x7ff, log := true }
  | .celWm => { rw := 0xffffffffffff, reset := 0x1001000200, log := true }
  | .celLadder => { rw := 0x7, reset := 0x7, log := true }
  | .celStat => {}
  | .celMapFree => {}
  | .coldBase => { rw := 0xfffffffffffff000, log := true }
  | .coldSize => { rw := 0xfffffffff, log := true }
  | .coldFree => {}
  | .dirSel => { rw := 0x1ffff }
  | .dirData _ => {}
  | .celEvtReenc => {}
  | .celEvtSpill => {}
  | .celEvtDrop => {}
  | .celEvtStall => {}
  | .celEvtRecallFetch => {}
  | .planCtl => { rw := 0x2 }
  | .planRawIn => {}
  | .planSectIn => {}
  | .planSectFetch => {}
  | .planColdOut => {}
  | .planColdIn => {}
  | .planTkt => {}
  | .planTktLatSum => {}
  | .planTktLatMax => {}
  | .planDefer => {}
  | .planFreeMin => { reset := 0x1ffff }
  | .planWaitCyc _ => {}
  | .cbCmd => { log := true }
  | .cbStat => {}
  | .cbReenc => { rw := 0xf, log := true }
  | .cbStage _ => { rw := 0xffffffffffffffff }
  | .sfuCfg => { rwl := 0x1, log := true }
  | .ftCmd => { log := true }
  | .ftStat => {}
  | .ftCrc => {}
  | .ftStage _ => { rw := 0xffffffffffffffff }
  | .drawKey => { rw := 0xffffffffffffffff, log := true }
  | .chainSteps _ => { rw := 0xffffffffffffffff, log := true }
  | .chainParam _ => { rw := 0xffffffffffffffff, log := true }
  | .ctxSel => { rw := 0x3fff }
  | .ctxCmd => { log := true }
  | .ctxStat => {}
  | .ctxProg => {}
  | .ctxRel => {}
  | .paceLt => {}
  | .paceMiss => {}
  | .paceEvt => {}
  | .strmFlt => {}
  | .ctxData _ => { rw := 0xffffffffffffffff }
  | .stripeWt i _ => { rw := if i = 0 then 0 else 0xffffffffffffffff, reset := 0x1111111111111111, log := true }
  | .semVal _ => {}
  | .mvHown => { rw := 0xffffffff00ffffff, log := true }
  | .mvCfg => { rwl := 0x3, log := true }
  | .hmvBnc => {}
  | .cmdRetry => { rw := 0xffff0000ffff, reset := 0x1000000040, log := true }
  | .cmdTmo => { rw := 0xffffffff, reset := 0x4c5, log := true }
  | .winBase => { rw := 0xfffffc000000 }
  | .hbCfg => { rw := 0x2, rwl := 0x5, log := true }
  | .hbRid => { rwl := 0xffff, log := true }
  | .ringBase _ => { rw := 0xfffffffffffff000, log := true }
  | .ringCfg _ => { rw := 0xf37, reset := 0x100, log := true }
  | .ringDb _ => {}
  | .ringStat _ => {}
  | .ringDone _ => {}
  | .p2pBase _ => { rw := 0xfffffffffffff000, log := true }
  | .p2pCtl _ => { rw := 0xc000fffffffff001, log := true }
  | .p2pBnc _ => { rw := 0xfffffffffffff000, log := true }
  | .p2pStat _ => {}
  | .p2pEvt _ => {}
  | .prmBuf0 _ => { rw := 0xfffffffe0000, log := true }
  | .prmBuf1 _ => { rw := 0xfffffffe0000, log := true }
  | .prmCfg _ => { rw := 0xfff8003fffffffff, log := true }
  | .prmSize _ => { rw := 0xffffffff00ffffff, log := true }
  | .prmHold _ => {}
  | .updRule _ j => { rw := if j = 6 then 0xf3 else if j = 7 then 0 else 0xffffffffffffffff, log := true }
  | .schedCfg _ => { rw := 0xf0ffffff00ffffff, log := true }
  | .schedVal _ => { rw := 0xffffffffffffffff, log := true }
  | .schedRf _ => { rw := 0xffffffff, log := true }
  | .schedCnt _ => { rw := 0xffffffffffff, log := true }
  | .schedLr _ => {}
  | .stepRpt => { rw := 0xfffffffffffffff0, log := true }
  | .stepCmd => {}
  | .stepStat => {}
  | .snapInterval => { rw := 0xffffffffffffff, reset := 0x1bf08eb00, log := true }
  | .snapLast => {}
  | .snapCtl => { rw := 0x1, log := true }
  | .snapCmd => { log := true }
  | .snapStat => {}
  | .snapDpos => { rw := 0xffffffff, log := true }
  | .snapArea _ => { rw := 0xfffffffffffff000, log := true }
  | .snapAsize _ => { rw := 0xfffffffff, log := true }
  | .cryptCfg => { rwl := 0x73, log := true }
  | .cryptErr => {}
  | .cryptEvt => {}
  | .cryptNctr => {}
  | .keyCtl => { log := true }
  | .keySlot _ _ => { log := true }
  | .nvCmd => { log := true }
  | .nvStat => {}
  | .nvPage _ => { rw := 0xffffffffffffffff }
  | .clSel => { rw := 0xfff }
  | .clStat => {}
  | .clData _ => {}
  | .chStat _ => { reset := 0x3 }
  | .chPwrCtl _ => { rw := 0xffffffffffff0003, reset := 0x400000000190001, log := true }
  | .chPwrStat _ => {}
  | .chPwrSt _ => { reset := 0x3 }
  | .chMpqPri _ => { rw := 0xffffffff, reset := 0x448a6ccf, log := true }
  | .chMpqAge _ => { rw := 0xffff, reset := 0x1000, log := true }
  | .chLag _ => {}
  | .chCelFree _ => {}
  | .chCelOwned _ => {}
  | .chPlanLslRaw _ => {}
  | .chPlanLslSect _ => {}
  | .chPlanWhey _ => {}
  | .chCodecEvt _ => {}
  | .chCodecErr _ => {}
  | .chCbState _ _ => {}
  | .chFmtEvt _ => {}
  | .chArithEvt _ => {}
  | .chFtBank _ => {}
  | .chAflagStat _ => {}
  | .chAflagHead _ => {}
  | .chAflagTile _ => {}
  | .chAflagCtl _ => {}
  | .chVslot _ _ => {}
  | .chUpdEvt _ => {}
  | .chan _ k =>
    if k = 0 || k = 1 || k = 4 || k = 5 then { rw := 0xffffffffffffffff }
    else if k = 2 then { rw := 0xffffffffff }
    else if k = 3 then { rw := 0xfffff3ffeffff077 } else {}
  | .imem _ => { rw := 0xffffffffffffffff }
  | .dmem _ => { rw := 0xffffffffffffffff }

/-- The index of an offset in a run of registers of stride `st`, indices `lo` to `lo + n - 1`. -/
def idx1 (o b st lo n : Nat) : Option Nat :=
  if b ≤ o ∧ (o - b) % st = 0 ∧ lo ≤ (o - b) / st ∧ (o - b) / st < lo + n then some ((o - b) / st) else none

/-- The registers of the hub that stand alone. -/
def hubRegs : List (Nat × Reg) :=
  [(0x0, .version), (0x8, .chipId), (0x10, .sysCtl), (0x18, .sysStat), (0x20, .modeCtl), (0x28, .modeStat),
   (0x30, .pllCfg), (0x38, .aonCnt), (0x40, .wakeAt), (0x48, .pwrCap), (0x50, .pwrStat), (0x58, .thermCfg),
   (0x60, .flTmo), (0x1000, .fltStat), (0x1008, .irqPend), (0x1010, .irqStat), (0x1018, .evtStat), (0x1020,
   .hmvIrq), (0x1028, .chSum), (0x2000, .sepCtl)] ++
  [(0x2008, .sepStat), (0x2010, .sepPc), (0x2018, .sepTrap), (0x2020, .lfTmo), (0x3000, .ilvCtl), (0x3008,
   .celBase), (0x3010, .celSize), (0x3018, .celMap), (0x3020, .celWm), (0x3028, .celLadder), (0x3030, .celStat),
   (0x3038, .celMapFree), (0x3040, .coldBase), (0x3048, .coldSize), (0x3050, .coldFree), (0x3058, .dirSel),
   (0x3080, .celEvtReenc), (0x3088, .celEvtSpill), (0x3090, .celEvtDrop), (0x3098, .celEvtStall)] ++
  [(0x30a0, .celEvtRecallFetch), (0x4000, .planCtl), (0x4008, .planRawIn), (0x4010, .planSectIn), (0x4018,
   .planSectFetch), (0x4020, .planColdOut), (0x4028, .planColdIn), (0x4030, .planTkt), (0x4038, .planTktLatSum),
   (0x4040, .planTktLatMax), (0x4048, .planDefer), (0x4050, .planFreeMin), (0x5000, .cbCmd), (0x5008, .cbStat),
   (0x5010, .cbReenc), (0x6000, .sfuCfg), (0x6008, .ftCmd), (0x6010, .ftStat), (0x6018, .ftCrc), (0xc000,
   .drawKey)] ++
  [(0x10000, .ctxSel), (0x10008, .ctxCmd), (0x10010, .ctxStat), (0x10018, .ctxProg), (0x10020, .ctxRel),
   (0x10028, .paceLt), (0x10030, .paceMiss), (0x10038, .paceEvt), (0x10040, .strmFlt), (0x20000, .mvHown),
   (0x20008, .mvCfg), (0x20010, .hmvBnc), (0x30000, .cmdRetry), (0x30008, .cmdTmo), (0x30010, .winBase),
   (0x30018, .hbCfg), (0x30020, .hbRid), (0x50000, .stepRpt), (0x50008, .stepCmd), (0x50010, .stepStat)] ++
  [(0x50018, .snapInterval), (0x50020, .snapLast), (0x50028, .snapCtl), (0x50030, .snapCmd), (0x50038,
   .snapStat), (0x50040, .snapDpos), (0x60000, .cryptCfg), (0x60008, .cryptErr), (0x60010, .cryptEvt), (0x60018,
   .cryptNctr), (0x60020, .keyCtl), (0x61000, .nvCmd), (0x61008, .nvStat), (0x62000, .clSel), (0x62008, .clStat)]

/-- The hub registers that come in runs. -/
def hubRuns (o : Nat) : List (Option Reg) :=
  [(idx1 o 0x1040 8 0 4).map .irqMap,
   (idx1 o 0x1080 8 0 8).map .irqMsgAddr,
   (idx1 o 0x10c0 8 0 8).map .irqMsgCtl,
   (idx1 o 0x1100 8 1 23).map .fltCnt,
   (idx1 o 0x1200 8 1 23).map .fltRec,
   (idx1 o 0x1300 8 1 23).map .fltInfo,
   (idx1 o 0x1400 8 1 23).map .fltTime,
   (idx1 o 0x3060 8 0 4).map .dirData,
   (idx1 o 0x4080 8 0 16).map .planWaitCyc,
   (idx1 o 0x5400 8 0 68).map .cbStage,
   (idx1 o 0x8000 8 0 2048).map .ftStage,
   (idx1 o 0xc800 8 1 255).map .chainSteps,
   (idx1 o 0xd000 8 1 255).map .chainParam,
   (idx1 o 0x10080 8 0 8).map .ctxData,
   if 0x10100 ≤ o ∧ o < 0x10200 then (idx1 ((o - 0x10100) % 16) 0 8 0 2).map (.stripeWt ((o - 0x10100) / 16)) else none,
   (idx1 o 0x18000 8 0 4096).map .semVal,
   (idx1 o 0x30100 64 0 16).map .ringBase,
   (idx1 o 0x30108 64 0 16).map .ringCfg,
   (idx1 o 0x30110 64 0 16).map .ringDb,
   (idx1 o 0x30118 64 0 16).map .ringStat,
   (idx1 o 0x30120 64 0 16).map .ringDone,
   (idx1 o 0x30800 64 0 8).map .p2pBase,
   (idx1 o 0x30808 64 0 8).map .p2pCtl,
   (idx1 o 0x30810 64 0 8).map .p2pBnc,
   (idx1 o 0x30818 64 0 8).map .p2pStat,
   (idx1 o 0x30820 64 0 8).map .p2pEvt,
   (idx1 o 0x40000 64 0 256).map .prmBuf0,
   (idx1 o 0x40008 64 0 256).map .prmBuf1,
   (idx1 o 0x40010 64 0 256).map .prmCfg,
   (idx1 o 0x40018 64 0 256).map .prmSize,
   (idx1 o 0x40020 64 0 256).map .prmHold,
   if 0x44000 ≤ o ∧ o < 0x45000 then (idx1 ((o - 0x44000) % 64) 0 8 0 8).map (.updRule ((o - 0x44000) / 64)) else none,
   (idx1 o 0x45000 64 0 8).map .schedCfg,
   (idx1 o 0x45008 64 0 8).map .schedVal,
   (idx1 o 0x45010 64 0 8).map .schedRf,
   (idx1 o 0x45018 64 0 8).map .schedCnt,
   (idx1 o 0x45020 64 0 8).map .schedLr,
   (idx1 o 0x50080 16 0 2).map .snapArea,
   (idx1 o 0x50088 16 0 2).map .snapAsize,
   if 0x60100 ≤ o ∧ o < 0x60200 then (idx1 ((o - 0x60100) % 32) 0 8 0 4).map (.keySlot ((o - 0x60100) / 32)) else none,
   (idx1 o 0x61200 8 0 64).map .nvPage,
   (idx1 o 0x62020 8 0 4).map .clData]

/-- A register of a channel's block (R216). -/
def chanReg (c : ChanId) (o : Nat) : Option Reg := (idx1 o 0 8 0 10).map (.chan c)

/-- The registers of churn `n`'s window at offset `o` within it. -/
def churnRegs (n o : Nat) : Option Reg :=
  if 0x8000 ≤ o ∧ o < 0x8400 then
    chanReg (.pail (BitVec.ofNat 5 n) (BitVec.ofNat 3 ((o - 0x8000) / 0x80))) ((o - 0x8000) % 0x80)
  else
    match o with
    | 0x0 => some (.chStat n)
    | 0x8 => some (.chPwrCtl n)
    | 0x10 => some (.chPwrStat n)
    | 0x18 => some (.chPwrSt n)
    | 0x20 => some (.chMpqPri n)
    | 0x28 => some (.chMpqAge n)
    | 0x30 => some (.chLag n)
    | 0x1000 => some (.chCelFree n)
    | 0x1008 => some (.chCelOwned n)
    | 0x1010 => some (.chPlanLslRaw n)
    | 0x1018 => some (.chPlanLslSect n)
    | 0x1020 => some (.chPlanWhey n)
    | 0x2000 => some (.chCodecEvt n)
    | 0x2008 => some (.chCodecErr n)
    | 0x3000 => some (.chFmtEvt n)
    | 0x3008 => some (.chArithEvt n)
    | 0x3010 => some (.chFtBank n)
    | 0x3018 => some (.chAflagStat n)
    | 0x3020 => some (.chAflagHead n)
    | 0x3028 => some (.chAflagTile n)
    | 0x3030 => some (.chAflagCtl n)
    | 0x4000 => some (.chUpdEvt n)
    | _ =>
      match idx1 o 0x2080 8 0 16 with | some i => some (.chCbState n i) | none => match idx1 o 0x3080 8 0 8 with | some i => some (.chVslot n i) | none => none

/-- The register or memory word at an offset; none where it is unoccupied (R383). -/
def regAt (o : Nat) : Option Reg :=
  if o % 8 ≠ 0 then none
  else if o < 0x400000 then
    if 0x21000 ≤ o ∧ o < 0x23000 then chanReg (.hub (BitVec.ofNat 6 ((o - 0x21000) / 0x80))) ((o - 0x21000) % 0x80)
    else
      match hubRegs.find? fun x => x.1 = o with
      | some x => some x.2
      | none => (hubRuns o).findSome? id
  else if o < 0x2400000 then churnRegs ((o - 0x400000) / 0x100000) ((o - 0x400000) % 0x100000)
  else if 0x3000000 ≤ o ∧ o < 0x3040000 then some (.imem ((o - 0x3000000) / 8))
  else if 0x3040000 ≤ o ∧ o < 0x3080000 then some (.dmem ((o - 0x3040000) / 8))
  else none

/-- The value a storing register holds: `regs` keeps the difference from the reset value. -/
def rd (s : State) (r : Reg) : Word := mget 0 s.regs r.off ^^^ r.desc.reset

/-- Sets the value a storing register holds. -/
def wr (s : State) (r : Reg) (v : Word) : State :=
  { s with regs := mset 0 s.regs r.off (v ^^^ r.desc.reset) }

end Sys2Proof.Machine
end

