-- ==== Sys2Proof/Machine/Stripe.lean ====
section
/-! DEFINITION. Where addresses lie: the interleave over the stacks (R51), the cellar's shares (R52, R54), and
the stripe of a stream over the churns (R154, R243, R245). -/

namespace Sys2Proof.Machine

/-- The end of device physical memory, 3 TiB (R6). -/
abbrev dpaEnd : Nat := 0x30000000000

/-- The end of a stack, 96 GiB (R51). -/
abbrev stackEnd : Nat := 0x1800000000

/-- ilv_fold of R51. -/
def ilvFold (ilv : Word) (row : Nat) : Nat :=
  let m := row &&& fld ilv 30 0
  (List.range 7).foldl (fun a i => a ^^^ ((m >>> (5 * i)) &&& 0x1F)) 0

/-- stack_of of R51. -/
def stackOf (ilv : Word) (dpa : Nat) : Nat :=
  if bit ilv 31 then ((dpa >>> 12) % 32) ^^^ ilvFold ilv ((dpa >>> 17) % 2 ^ 31) else (dpa >>> 12) % 32

/-- local_of of R51. -/
def localOf (dpa : Nat) : Nat := ((dpa >>> 17) % 2 ^ 31) * 4096 + dpa % 4096

/-- dpa_of of R51. -/
def dpaOf (ilv : Word) (n loc : Nat) : Nat :=
  let row := (loc >>> 12) % 2 ^ 31
  let sel := if bit ilv 31 then n ^^^ ilvFold ilv row else n
  row * 2 ^ 17 + sel * 4096 + loc % 4096

/-- The interleave in force. -/
def ilv (s : State) : Word := rd s .ilvCtl

/-- The stack-local address of the first cellar byte, the same in every churn (R52). -/
def celLocal (s : State) : Nat := localOf (rd s .celBase).toNat

/-- CEL_SIZE: the chunks of each churn's share (R52). -/
def celSize (s : State) : Nat := fld (rd s .celSize) 16 0

/-- The effective MAP_CHUNKS (R53, R73). -/
def mapChunks (s : State) : Nat := min (fld (rd s .celMap) 10 0) 1024

/-- Map pages of each share (R59). -/
def mapPages (s : State) : Nat := if s.hasCellar then mapChunks s * 256 else 0

/-- Data chunks of each share (R54). -/
def dataChunks (s : State) : Nat := if s.hasCellar then celSize s - mapChunks s else 0

/-- The stack-local address of data chunk `k` (R54). -/
def chunkLocal (s : State) (k : Nat) : Nat := celLocal s + (mapChunks s + k) * 2 ^ 20

/-- The data chunk that holds a stack-local address. -/
def chunkOf (s : State) (loc : Nat) : Nat := (loc - celLocal s) / 2 ^ 20 - mapChunks s

/-- The stack-local address of an entry's map word `i` (R59). -/
def mapLocal (s : State) (x : Entry) (i : Nat) : Nat := celLocal s + x.mapBase.toNat * 4096 + 8 * i

/-- wt(s, n): the weight of churn `n` in set `k` (R243, R244). -/
def weight (s : State) (k n : Nat) : Nat :=
  (rd s (.stripeWt k (n / 16))).toNat / 16 ^ (n % 16) % 16

/-- The deal sequence of R243. -/
def dealSeq (s : State) (mask : BitVec 32) (k : Nat) : List Nat :=
  (List.range 15).flatMap fun r =>
    (List.range 32).filter fun n => mask.getLsbD n && decide (weight s k n > r)

/-- stripe_churn of R243. -/
def stripeChurn (seq : List Nat) (f : Nat) : Nat := seq.getD (f % seq.length) 0

/-- The places of churn `n` in the deal sequence. -/
def places (seq : List Nat) (n : Nat) : List Nat := (List.range seq.length).filter fun i => seq.getD i 32 == n

/-- How many of `k` frames churn `n` holds. -/
def framesOf (seq : List Nat) (n k : Nat) : Nat :=
  if seq.length = 0 then 0
  else (k / seq.length) * (places seq n).length + ((places seq n).filter fun i => i < k % seq.length).length

/-- The frame of the stream that is churn `n`'s local frame `q` (R243, R245). -/
def frameAt (seq : List Nat) (n q : Nat) : Nat :=
  let p := places seq n
  (q / p.length) * seq.length + p.getD (q % p.length) 0

/-- The local number of frame `f` in the churn that holds it. -/
def localFrame (seq : List Nat) (f : Nat) : Nat :=
  framesOf seq (stripeChurn seq f) f

/-- Blocks per full frame of a format (R154). -/
def blocksPerFrame (f rank : Nat) : Nat := fmtK f rank

/-- map_len of R94: the blocks of the churn that holds most, for `nblk` blocks dealt in frames of `k`. -/
def churnBlocks (seq : List Nat) (nblk k n : Nat) : Nat :=
  let fr := cdiv nblk k
  let full := framesOf seq n fr * k
  if fr ≠ 0 ∧ stripeChurn seq (fr - 1) = n then full - (fr * k - nblk) else full

/-- The largest number of blocks one churn stores (R94). -/
def mapLen (s : State) (mask : BitVec 32) (swt nblk k : Nat) : Nat :=
  let seq := dealSeq s mask swt
  (List.range 32).foldl (fun m n => max m (if mask.getLsbD n then churnBlocks seq nblk k n else 0)) 0

/-- Bytes a frame of `n` elements takes on the fabric in type `f` (R154, R245). -/
def frameBytes (f rank n : Nat) : Nat :=
  if f = 0xB ∧ n = frameElems then fmtK f rank * 4096 else storedLen f n rank

/-- Elements of frame `f` of a tensor of `elems` elements. -/
def frameLen (elems f : Nat) : Nat := min frameElems (elems - f * frameElems)

/-- Frames of a tensor (R154). -/
def frames (elems : Nat) : Nat := cdiv elems frameElems

/-- Elements of churn `n`'s frames, in local order, of a tensor of `elems` elements: the count of its
frames and the elements of its last one. -/
def shareFrames (seq : List Nat) (n elems : Nat) : Nat := framesOf seq n (frames elems)

/-- Churn `n`'s share of a stream in bytes, each full frame taking `fb` and the last frame of the stream `lb` (R245). -/
def shareBytes (seq : List Nat) (n nfr fb lb : Nat) : Nat :=
  let k := framesOf seq n nfr
  if nfr ≠ 0 ∧ stripeChurn seq (nfr - 1) = n then (k - 1) * fb + lb else k * fb

end Sys2Proof.Machine
end

