-- ==== Sys2Proof/Machine/Ops.lean ====
section
/-! DEFINITION. The shared operations: access to the parts of State, faults and their records (R376), interrupt
requests and messages (R287, R288, R381), the change log (R349), sending on the ports (R34, R38, R45, R390), and
the separator's trap (R109). -/

namespace Sys2Proof.Machine

/-- What a command answers. -/
abbrev Out := Host.Outcome State Fault Refusal

/-! ## Parts of State -/

/-- Churn `n`. -/
def churnAt (s : State) (n : Nat) : Churn := vget {} s.churns n

/-- Replaces churn `n`. -/
def setChurn (s : State) (n : Nat) (c : Churn) : State := { s with churns := vset s.churns n c }

/-- Changes churn `n`. -/
def modChurn (n : Nat) (f : Churn → Churn) (s : State) : State := setChurn s n (f (churnAt s n))

/-- Directory entry `e`; a FREE entry is all zeros (R68). -/
def entAt (s : State) (e : Nat) : Entry := mget {} s.dir e

/-- Replaces directory entry `e`. -/
def setEnt (s : State) (e : Nat) (x : Entry) : State := { s with dir := mset {} s.dir e x }

/-- Changes directory entry `e`. -/
def modEnt (e : Nat) (f : Entry → Entry) (s : State) : State := setEnt s e (f (entAt s e))

/-- Stream context `i`. -/
def ctxAt (s : State) (i : Nat) : Ctx := mget {} s.ctxs i

/-- Replaces stream context `i`. -/
def setCtx (s : State) (i : Nat) (c : Ctx) : State := { s with ctxs := mset {} s.ctxs i c }

/-- Semaphore pair `p`. -/
def pairAt (s : State) (p : Nat) : Pair := mget {} s.pairs p

/-- Replaces semaphore pair `p`. -/
def setPair (s : State) (p : Nat) (x : Pair) : State := { s with pairs := mset {} s.pairs p x }

/-- Ticket slot `i`. -/
def ticketAt (s : State) (i : Nat) : Ticket := mget {} s.tickets i

/-- Replaces ticket slot `i`. -/
def setTicket (s : State) (i : Nat) (x : Ticket) : State := { s with tickets := mset {} s.tickets i x }

/-- Ring `r`. -/
def ringAt (s : State) (r : Nat) : Ring := vget {} s.rings r

/-- Changes ring `r`. -/
def modRing (r : Nat) (f : Ring → Ring) (s : State) : State :=
  { s with rings := vset s.rings r (f (ringAt s r)) }

/-- A mover channel. -/
def chanAt (s : State) : ChanId → Chan
  | .hub c => vget {} s.hub c.toNat
  | .pail n c => vget {} (churnAt s n.toNat).pails c.toNat

/-- Replaces a mover channel. -/
def setChan (s : State) : ChanId → Chan → State
  | .hub c, x => { s with hub := vset s.hub c.toNat x }
  | .pail n c, x => modChurn n.toNat (fun ch => { ch with pails := vset ch.pails c.toNat x }) s

/-- Changes a mover channel. -/
def modChan (c : ChanId) (f : Chan → Chan) (s : State) : State := setChan s c (f (chanAt s c))

/-- The number of a port. -/
def portIx : PortId → Nat
  | .mp n => n.toNat
  | .fp n => 32 + n.toNat
  | .hbp => 64
  | .pp => 65
  | .cp => 66
  | .ccp => 67

/-- A port. -/
def portAt (s : State) (p : PortId) : Port := vget {} s.ports (portIx p)

/-- Replaces a port. -/
def setPort (s : State) (p : PortId) (x : Port) : State := { s with ports := vset s.ports (portIx p) x }

/-- MPn as a port. -/
def mpP (n : Nat) : PortId := .mp (BitVec.ofNat 5 n)

/-- FPn as a port. -/
def fpP (n : Nat) : PortId := .fp (BitVec.ofNat 5 n)

/-- Whether a reset is asserted (R364, R365). -/
def inReset (s : State) : Bool := s.sys.cold || s.sys.warm || s.sys.aonLow

/-- Whether fclk runs (R353). -/
def fclkOn (s : State) : Bool := s.sys.lock && s.sys.ref && !s.sys.aons

/-- Whether the hub forms the interrupt requests: fclk runs, or a reset holds every output at its reset value (R353, R365). -/
def hubOn (s : State) : Bool := inReset s || fclkOn s

/-- Whether the block's units act: it is READY, out of reset, and fclk runs (R353, R359, R366). -/
def live (s : State) : Bool := !inReset s && s.sys.phase == 8 && fclkOn s

/-- Whether a port's bridges take requests (R365, R366). -/
def accepts (s : State) : Bool := !inReset s && s.sys.phase == 8

/-- The modes in which streams run as barrier stages: STARTUP, TEST and RECOVERY (R256, R372). -/
def barrierMode (s : State) : Bool := s.sys.mode == 0 || s.sys.mode == 3 || s.sys.mode == 4

/-- The next free value's index, and the counter moved on. -/
def tickFree (s : State) : State := { s with freeCtr := s.freeCtr + 1 }

/-! ## Faults -/

/-- FLT_REC's word (R376): the entry, the op code, the churn or port number, and the source. -/
def recWord (entry : Option Nat) (op churn src : Nat) : Word :=
  pack [(47, entry.getD 0), (46, b1 entry.isSome), (38, op), (33, churn), (29, src)]

/-- Sets a bit of ASTAT (R108). -/
def setAstat (i : Nat) (s : State) : State :=
  { s with sep := { s.sep with astat := s.sep.astat ||| BitVec.ofNat 5 (2 ^ i) } }

/-- The marks a NONFINITE leaves on the open step: ASTAT bit 4, a cause that blocks the eprdy to come, and LATE after a ready report
(R108, R314). -/
def markNonfinite (s : State) : State :=
  let s := setAstat 4 s
  if s.step.open_ then { s with step := { s.step with blk := s.step.blk ||| 1, late := s.step.late || s.step.ready } } else s

/-- What a raise of fault `c` does besides its record: CELLAR_FULL and NONFINITE show in ASTAT (R108). -/
def raiseMarks (c : Nat) (s : State) : State :=
  if c = 8 then setAstat 3 s else if c = 12 then markNonfinite s else s

/-- The order in which records of one cycle are latched: SRC first, then the churn (R376). -/
def recRank (what : Word) : Nat := fld what 32 29 * 32 + fld what 37 33

/-- Whether a raise of fault `c` latches its record (R376, R378): the bit was 0 at the start of the cycle, and of the raises of the
cycle it comes from the lowest SRC, and the lowest churn of it. -/
def latches (s : State) (c : Nat) (what : Word) : Bool :=
  !s.fltWas.getLsbD c && (!s.flt.getLsbD c || decide (recRank what < recRank (vget {} s.flts c).what))

/-- A raise of fault `c` (R376): the status bit, the counter, and the record if the raise latches it. -/
def raise (c : Nat) (what info : Word) (s : State) : State :=
  let f := vget {} s.flts c
  let f' : FltRec :=
    if latches s c what then { cnt := satAdd f.cnt 1, what := what, info := info, time := s.sys.aon }
    else { f with cnt := satAdd f.cnt 1 }
  raiseMarks c { s with flts := vset s.flts c f', flt := s.flt ||| BitVec.ofNat 24 (2 ^ c) }

/-- A FROZEN_SKIP of an op on a region with FIRQ = 0: counted alone (R376). -/
def countFault (c : Nat) (s : State) : State :=
  let f := vget {} s.flts c
  { s with flts := vset s.flts c { f with cnt := satAdd f.cnt 1 } }

/-- A fault of work the separator handed out to a churn: raised, and ASTAT bit 0 set (R108, R110). -/
def churnFault (c : Nat) (what info : Word) (s : State) : State := setAstat 0 (raise c what info s)

/-! ## Interrupts -/

/-- Whether a channel requests its interrupt (R229). -/
def chanIrq (c : Chan) : Bool := (c.done && bit c.act.cfg 29) || c.flt || c.abt

/-- HMV_IRQ (R380). -/
def hmvIrqBits (s : State) : Nat := (List.range 64).foldl (fun a i => a + b1 (chanIrq (vget {} s.hub i)) * 2 ^ i) 0

/-- Whether a pail of churn `n` requests its interrupt. -/
def pailIrq (s : State) (n : Nat) : Bool := (churnAt s n).pails.toList.any chanIrq

/-- CH_SUM (R380); a warm reset keeps its PAIL bits (R379). -/
def chSum (s : State) : Nat :=
  (List.range 32).foldl (fun a n =>
    a + b1 (pailIrq s n || s.sys.pailSum.getLsbD n) * 2 ^ n + b1 (!(churnAt s n).flags.isEmpty) * 2 ^ (32 + n)) 0

/-- The active sources (R380). -/
def sources (s : State) : Nat :=
  (s.flt.toNat / 2 * 2 % 2 ^ 24)
  + (List.range 16).foldl (fun a r => a + b1 (ringAt s r).cdone * 2 ^ (24 + r)) 0
  + b1 (hmvIrqBits s != 0) * 2 ^ 40
  + b1 (chSum s % 2 ^ 32 != 0) * 2 ^ 41
  + b1 (bit s.evt 0) * 2 ^ 42
  + s.sys.capEvt.toNat * 2 ^ 43
  + b1 s.sys.refloss * 2 ^ 46 + b1 s.sys.cfgerr * 2 ^ 47
  + b1 (bit s.evt 1) * 2 ^ 48
  + b1 (chSum s / 2 ^ 32 != 0) * 2 ^ 49

/-- IRQ_MAP's field of source `i` (R381). -/
def irqField (s : State) (i : Nat) : Nat := (rd s (.irqMap (i / 16))).toNat / 16 ^ (i % 16) % 16

/-- The active sources that are enabled: IRQ_PEND (R381). -/
def irqSrc (s : State) : Nat :=
  if (List.range 4).all fun i => rd s (.irqMap i) == 0 then 0
  else
    let a := sources s
    (List.range 64).foldl (fun x i => x + b1 (a / 2 ^ i % 2 == 1 && irqField s i ≥ 8) * 2 ^ i) 0

/-- The interrupt requests (R381); all 0 in reset (R288). -/
def irqRequests (s : State) : BitVec 8 :=
  if inReset s then 0
  else
    let p := irqSrc s
    if p = 0 then 0
    else (List.range 64).foldl
      (fun x i => if p / 2 ^ i % 2 = 1 then x ||| BitVec.ofNat 8 (2 ^ (irqField s i % 8)) else x) 0

/-! ## Ports -/

/-- Whether both sides of a link are up. -/
def linkOk (s : State) (p : PortId) : Bool := (portAt s p).outUp && (portAt s p).inUp

/-- Data credits a message takes (R38). -/
def dataCredits (m : Msg) : Nat :=
  match m.opc.toNat with
  | 2 | 3 => cdiv (m.len + 1) 64
  | 4 | 5 => 1
  | _ => 0

/-- Whether an opcode expects a response (R28). -/
def nonPosted (opc : BitVec 8) : Bool := opc == 1 || opc == 2

/-- The tags of each requester channel (R34). -/
def tagCount : PortId → Nat
  | .mp _ => 4096
  | .hbp => 16384
  | .pp => 8192
  | _ => 0

/-- The tags of port `p` that no request may take: in flight, or waiting for a late response (R34, R46). -/
def tagsBusy (s : State) (p : PortId) : List Nat :=
  (s.inflight.filter fun f => f.port == p).map (·.tag.toNat) ++ (s.late.filter fun l => l.1 == p).map (·.2.toNat)

/-- The lowest free tag of port `p`, if one is free (log entry 14). -/
def freeTag (s : State) (p : PortId) : Option Nat :=
  let b := tagsBusy s p
  ((List.range (min (b.length + 1) (tagCount p))).find? fun t => !b.contains t)

/-- Whether churn `n` is in a state in which its bridges send nothing: SLEEP or OFF (R356). -/
def asleep (s : State) (n : Nat) : Bool := (churnAt s n).pwr == .sleep || (churnAt s n).pwr == .off

/-- Whether a message can be driven now: credits of both kinds, a tag if it needs one, its churn awake, and for a SEQ
request on HBP no earlier non-posted request in flight (R38, R34, R45, R356). -/
def canDrive (s : State) (m : Msg) (owner : Option Owner) : Bool :=
  let p := portAt s m.port
  decide (1 ≤ p.hdr.toNat) && decide (dataCredits m ≤ p.dat.toNat)
  && (owner.isNone || (freeTag s m.port).isSome)
  && !(m.port == .hbp && m.oc == 2 && s.inflight.any fun f => f.port == .hbp)
  && (match m.port with | .mp n | .fp n => !asleep s n.toNat | _ => true)

/-- Drives a message: takes its credits and tag and puts it on the channel (R34, R38). -/
def drive (m : Msg) (owner : Option Owner) (s : State) : State :=
  let p := portAt s m.port
  let s := setPort s m.port { p with hdr := p.hdr - 1, dat := p.dat - BitVec.ofNat 16 (dataCredits m) }
  match owner with
  | none => { s with sent := s.sent ++ [m] }
  | some o =>
    let t := BitVec.ofNat 16 ((freeTag s m.port).getD 0)
    { s with
      sent := s.sent ++ [{ m with tag := t }]
      inflight := s.inflight ++
        [{ port := m.port, tag := t, rd := m.opc == 1, addr := m.addr.toNat, len := m.len + 1, owner := o }] }

/-- Header bits [127:64] of a response: opcode, tag, STAT and LEN (R28, R375). -/
def rspHi (tag : BitVec 16) (stat : BitVec 4) (data : List Byte) : Nat :=
  (if data.isEmpty then 0x81 else 0x80) * 2 ^ 56 + tag.toNat * 2 ^ 40 + stat.toNat * 2 ^ 32 + (data.length - 1)

/-- The bus fault of a port, if it has one (R375, R390; FP counts as memory side, R230). -/
def busFault : PortId → Option Nat
  | .mp _ | .fp _ => some 1
  | .hbp => some 2
  | .pp => some 3
  | _ => none

/-- The SRC code and number of a port in FLT_REC (R376). -/
def portSrc : PortId → Nat × Nat
  | .mp n => (6, n.toNat)
  | .fp n => (7, n.toNat)
  | .hbp => (8, 0)
  | .pp => (9, 0)
  | .cp => (10, 0)
  | .ccp => (11, 0)

/-- FLT_REC's word for a fault of a port. -/
def portRec (p : PortId) : Word := recWord none 0xFF (portSrc p).2 (portSrc p).1

/-- Raises a port's bus fault, naming the port (R47, R390). -/
def raisePort (p : PortId) (info : Word) (s : State) : State :=
  match busFault p with
  | some c => raise c (portRec p) info s
  | none => s

/-- A request that meets a link that is down (R390): a non-posted one completes as TGT_ERR to its
owner; a posted one is discarded, and the first discard on a link not yet up raises the bus fault. -/
def sendDown (m : Msg) (owner : Option Owner) (s : State) : State :=
  match owner with
  | some o =>
    { s with dead := s.dead ++
        [{ port := m.port, tag := 0, rd := m.opc == 1, addr := m.addr.toNat, len := m.len + 1, owner := o }] }
  | none =>
    let p := portAt s m.port
    if p.everUp || p.discard then s else raisePort m.port m.addr (setPort s m.port { p with discard := true })

/-- Splits a list at the first element that satisfies `p`. -/
def takeOut {α : Type} (p : α → Bool) : List α → Option (α × List α)
  | [] => none
  | x :: r => if p x then some (x, r) else (takeOut p r).map fun y => (y.1, x :: y.2)

/-- Requests whose owner satisfies `p` no longer belong to anyone. -/
def orphan (p : Owner → Bool) (s : State) : State :=
  let f (x : Flight) : Flight := if p x.owner then { x with owner := .gone } else x
  { s with
    inflight := s.inflight.map f
    dead := s.dead.map f
    txq := s.txq.map fun x => match x.owner with | some o => if p o then { x with owner := some .gone } else x | none => x }

/-- The queue in front of MPn_REQ a request goes through (R237): 0 MAP, 1 SIN, 2 SOUT, 3 LADDER, 4 UPD, 5 HUB, 6 PAIL0, 7 PAIL1. What a
hub channel asks for in a churn's stack beside its data is a line of the block map (R60). -/
def mpQueue (s : State) (x : TxReq) : Nat :=
  let ofOp (n : BitVec 5) (id : Nat) : Nat :=
    match (churnAt s n.toNat).run.find? fun o => o.op.id == id with
    | some o => (match o.op.kind with | .sin => 1 | .reenc => 3 | .upd => 4 | _ => 2)
    | none => 2
  match x.owner with
  | some (.mapRd ..) | some (.mapWb ..) | some (.mapFw ..) => 0
  | some (.chanSg c) => if c < 100 then 0 else 6 + (c - 100) % 8 / 4
  | some (.blockRd n id ..) | some (.store n id ..) | some (.memOut n id) => ofOp n id
  | some (.updRd ..) | some (.updWr ..) => 4
  | some (.chanRd c _) | some (.chanWr c _) | some (.chanBar c) =>
    if c < 100 then 5 else 6 + (c - 100) % 8 / 4
  | _ => 5

/-- The queue mp_grant serves next at port MPn, if a head can be driven: one that has waited AGE cycles, the oldest first; else the
highest priority, in turn (R237). -/
def mpGrant (s : State) (n : Nat) : Option Nat :=
  let heads := (List.range 8).filterMap fun q => (s.txq.find? fun x => x.m.port == mpP n && mpQueue s x == q).map fun x => (q, x)
  let c := heads.filter fun h => canDrive s h.2.m h.2.owner
  let old := c.filter fun h => decide (max 1 (rd s (.chMpqAge n)).toNat ≤ s.sys.now - h.2.t)
  match old with
  | h :: r => some (r.foldl (fun b h => if h.2.t < b.2.t then h else b) h).1
  | [] =>
    let pri (q : Nat) : Nat := fld (rd s (.chMpqPri n)) (4 * q + 3) (4 * q)
    let top := c.foldl (fun m h => max m (pri h.1)) 0
    let last := mget 0 (churnAt s n).mpLast top
    let ready := (c.map (·.1)).filter fun q => pri q == top
    match ready.find? fun q => decide (last ≤ q) with
    | some q => some q
    | none => ready.head?

/-- Notes that queue `q` of churn `n` was granted. -/
def mpNote (n q : Nat) (s : State) : State :=
  modChurn n (fun c => { c with mpLast := mset 0 c.mpLast (fld (rd s (.chMpqPri n)) (4 * q + 3) (4 * q)) (q + 1) }) s

/-- The next message of FPn_OUT (R236): one of a pail engine that has waited AGE cycles, else the first of the stream path, else the
pail engines in turn. The answer names the pail engine. -/
def fpGrant (s : State) (n : Nat) : Option (TxReq × Option Nat) :=
  let mine := s.txq.filter fun x => x.m.port == fpP n
  let head (e : Nat) : Option (TxReq × Option Nat) :=
    (mine.find? fun x => x.src.any fun c => decide ((c - 100) % 8 / 4 = e)).map fun x => (x, some e)
  let pails := ([(churnAt s n).fpLast, 1 - (churnAt s n).fpLast].filterMap head).filter fun h => canDrive s h.1.m h.1.owner
  let old := pails.filter fun h => decide (max 1 (rd s (.chMpqAge n)).toNat ≤ s.sys.now - h.1.t)
  match old with
  | h :: r => some (r.foldl (fun b h => if h.1.t < b.1.t then h else b) h)
  | [] =>
    match mine.find? fun x => x.src.isNone with
    | some x => if canDrive s x.m x.owner then some (x, none) else none
    | none => pails.head?

/-- The next queued message of port `p` to drive, and the queue without it: on MPn the one mp_grant picks, on FPn_OUT the one of R236,
else the first. -/
def nextTx (p : PortId) (s : State) : Option (TxReq × State) :=
  match p with
  | .mp n =>
    match mpGrant s n.toNat with
    | none => none
    | some q =>
      (takeOut (fun x => x.m.port == p && mpQueue s x == q) s.txq).map fun y => (y.1, mpNote n.toNat q { s with txq := y.2 })
  | .fp n =>
    match fpGrant s n.toNat with
    | none => none
    | some (x, e) =>
      (takeOut (· == x) s.txq).map fun y =>
        let s := { s with txq := y.2 }
        (y.1, match e with | some e => modChurn n.toNat (fun c => { c with fpLast := 1 - e }) s | none => s)
  | _ =>
    match takeOut (fun x => x.m.port == p) s.txq with
    | none => none
    | some (x, r) => if canDrive s x.m x.owner then some (x, { s with txq := r }) else none

/-- A ring with no command in progress. -/
def ringClear (x : Ring) : Ring :=
  { x with cmd := [], begun := false, started := false, timedOut := false, tries := 0, gap := false, left := 0, bad := false
           got := [], after := [], ended := false, closing := false }

/-- Ring `r`'s command is over: its record, or the write it ends with, has been issued (R265, R266, R268, R275). A ring enabled again
meanwhile begins at count 0. -/
def cmdFin (r : Nat) (s : State) : State :=
  modRing r (fun x => { ringClear x with
    count := if x.renew then x.count else x.count + 1
    doneCnt := if x.renew then x.doneCnt else x.doneCnt + 1
    cdone := x.cdone || bit (nth x.cmd 0) 32
    st := if x.disabling then .off else .idle, disabling := false, renew := false }) s

/-- What follows once a queued message has been issued, or discarded on a link that is down (R275, R390). -/
def issuedTx (c : Option Nat) (s : State) : State :=
  match c with
  | some k => if 400 ≤ k ∧ k < 416 then cmdFin (k - 400) s else s
  | none => s

/-- Drives the queued messages of port `p`, while they can be driven. -/
def pump (p : PortId) : Nat → State → State
  | 0, s => s
  | k + 1, s =>
    if !linkOk s p then s
    else
      match nextTx p s with
      | none => s
      | some (x, s) => pump p k (issuedTx x.src (drive x.m x.owner s))

/-- Sends a message of an issuer: it joins the queue of its port, which drives what it can (R21, R38). -/
def sendBy (src : Option Nat) (m : Msg) (owner : Option Owner) (s : State) : State :=
  if !linkOk s m.port then issuedTx src (sendDown m owner s)
  else pump m.port (s.txq.length + 1) { s with txq := s.txq ++ [{ m := m, owner := owner, t := s.sys.now, src := src }] }

/-- Sends a message. -/
def send (m : Msg) (owner : Option Owner) (s : State) : State := sendBy none m owner s

/-- Drives what a port's queue can drive now. -/
def pumpAll (p : PortId) (s : State) : State := pump p s.txq.length s

/-- A posted write. -/
def wrpMsg (p : PortId) (addr : Nat) (data : List Byte) (oc : Nat) (ns : Bool := false) (chip : BitVec 17 := 0) : Msg :=
  { port := p, opc := 3, oc := BitVec.ofNat 2 oc, chip := chip, len := data.length - 1, addr := BitVec.ofNat 64 addr,
    attr := BitVec.ofNat 2 (if p = .hbp then b1 (oc = 0) + 2 * b1 ns else 0), data := data }

/-- A non-posted write. -/
def wrMsg (p : PortId) (addr : Nat) (data : List Byte) (oc : Nat) (chip : BitVec 17 := 0) : Msg :=
  { wrpMsg p addr data oc false chip with opc := 2 }

/-- A read of `n` bytes. -/
def rdMsg (p : PortId) (addr n oc : Nat) (ns : Bool := false) (chip : BitVec 17 := 0) : Msg :=
  { port := p, opc := 1, oc := BitVec.ofNat 2 oc, chip := chip, len := n - 1, addr := BitVec.ofNat 64 addr,
    attr := BitVec.ofNat 2 (if p = .hbp then b1 (oc = 0) + 2 * b1 ns else 0) }

/-- A semaphore signal in class SEQ (R228, R250). -/
def sigMsg (p : PortId) (addr count : Nat) (chip : BitVec 17 := 0) : Msg :=
  { port := p, opc := 4, oc := 2, chip := chip, len := 7, addr := BitVec.ofNat 64 addr, data := toBytes 8 (count % 65536) }

/-- A CCP_OUT message in class ORD (R29, R120, R255). -/
def ccpMsg (kind : Nat) (ws : List Word) : Msg :=
  { port := .ccp, opc := 5, oc := 1, len := 63, addr := BitVec.ofNat 64 kind, data := wordsBytes (bytesWords 8 (wordsBytes ws)) }

/-! ## Interrupt messages and lines -/

/-- IRQ_MSG_CTL[v].MODE (R287). -/
def irqMode (s : State) (v : Nat) : Nat := fld (rd s (.irqMsgCtl v)) 1 0

/-- The message of request `v` (R287). -/
def irqMessage (s : State) (v : Nat) : Msg :=
  wrpMsg .hbp (rd s (.irqMsgAddr v)).toNat (toBytes 4 (fld (rd s (.irqMsgCtl v)) 63 32)) 2

/-- Sends a message that expects no response behind those its port's queue holds: where it holds any, they wait already, and it joins
them (R21, R38). -/
def sendLast (m : Msg) (s : State) : State :=
  if !linkOk s m.port then sendDown m none s
  else if s.txq.any (fun x => x.m.port == m.port) || !canDrive s m none then
    { s with txq := s.txq ++ [{ m := m, owner := none, t := s.sys.now }] }
  else drive m none s

/-- What a rise or fall of request `v` does (R288). -/
def irqEdge (new : BitVec 8) (s : State) (v : Nat) : State :=
  if new.getLsbD v && !s.irqReq.getLsbD v then
    if irqMode s v = 0 then s
    else if bit (rd s (.irqMsgCtl v)) 2 || !linkOk s .hbp then
      { s with irqPend := s.irqPend ||| BitVec.ofNat 8 (2 ^ v) }
    else sendLast (irqMessage s v) s
  else if !new.getLsbD v && s.irqReq.getLsbD v then
    { s with irqPend := s.irqPend &&& ~~~ BitVec.ofNat 8 (2 ^ v) }
  else s

/-- IRQ_OUT (R287). -/
def irqLines (s : State) (req : BitVec 8) : BitVec 8 :=
  (List.range 8).foldl (fun a v => if req.getLsbD v && irqMode s v != 1 then a ||| BitVec.ofNat 8 (2 ^ v) else a) 0

/-- Forms the interrupt requests afresh and reports them (R287, R288, R381), and notes FLT_STAT for the raises of the next cycle
(R376). -/
def report (s : State) : State :=
  let req := irqRequests s
  let s := if req = s.irqReq then s else { (List.range 8).foldl (irqEdge req) s with irqReq := req }
  { s with irqOut := if req = 0 then 0 else irqLines s req, fltWas := s.flt }

/-- The end of a cycle, or of a command: the requests are formed and reported as the next cycle does it. While fclk is stopped the hub
holds its state, and they wait for fclk (R353). -/
def settle (s : State) : State := if hubOn s then report s else s

/-- Sends the held message of request `v`, if its mask and link allow it (R288). -/
def irqRelease (s : State) (v : Nat) : State :=
  if s.irqPend.getLsbD v && irqMode s v != 0 && !bit (rd s (.irqMsgCtl v)) 2 && linkOk s .hbp then
    sendLast (irqMessage s v) { s with irqPend := s.irqPend &&& ~~~ BitVec.ofNat 8 (2 ^ v) }
  else s

/-! ## Change log -/

/-- The code of an origin (R349). -/
def Origin.code : Origin → Nat
  | .cp => 0
  | .hbp => 1
  | .ladle => 2
  | .image => 3
  | .wrapper => 4

/-- The code of an access size (R349). -/
def WSize.code : WSize → Nat
  | .full => 0
  | .low => 1
  | .high => 2

/-- Adds an entry to the change log (R349, R350). -/
def logWrite (o : Org) (off result : Nat) (old new : Word) (s : State) : State :=
  let e : LogEnt :=
    { w0 := pack [(60, result), (56, Origin.code o.origin), (0, s.sys.aon.toNat)],
      w1 := pack [(48, if o.origin = .cp ∨ o.origin = .hbp then o.rid.toNat else 0), (46, WSize.code o.size), (0, off)],
      old := old, new := new }
  { s with log := mset {} s.log (s.logTotal.toNat % 4096) e, logTotal := satAdd s.logTotal 1 }

/-- The SRC code of a write's origin in FLT_REC: the register file (R376). -/
def illegalReg (off : Nat) (s : State) : State :=
  raise 0x14 (recWord none 0xFF 0 14) (BitVec.ofNat 64 off) s

/-- A write that is ignored, raises ILLEGAL_OP and is recorded by the change log. -/
def refuseWrite (o : Org) (off : Nat) (old v : Word) (s : State) : State :=
  illegalReg off (logWrite o off 2 old v s)

/-- The bits of a register a write addresses (R7). -/
def sizeMask : WSize → Word
  | .full => 0xFFFFFFFFFFFFFFFF
  | .low => 0xFFFFFFFF
  | .high => 0xFFFFFFFF00000000

/-! ## Separator registers, data memory and traps -/

/-- A general register; g0 reads 0 (R81). -/
def gR (s : State) (i : BitVec 6) : Word := if i = 0 then 0 else vget 0 s.sep.g i.toNat

/-- Writes a general register; writes to g0 are discarded (R81). -/
def gW (i : BitVec 6) (v : Word) (s : State) : State :=
  if i = 0 then s else { s with sep := { s.sep with g := vset s.sep.g i.toNat v } }

/-- A predicate; p0 reads 1 (R81). -/
def pR (s : State) (i : BitVec 3) : Bool := if i = 0 then true else s.sep.p.getLsbD i.toNat

/-- Writes a predicate; writes to p0 are discarded (R81). -/
def pW (i : BitVec 3) (b : Bool) (s : State) : State :=
  if i = 0 then s
  else
    let m := BitVec.ofNat 8 (2 ^ i.toNat)
    { s with sep := { s.sep with p := if b then s.sep.p ||| m else s.sep.p &&& ~~~ m } }

/-- A tensor descriptor register. -/
def tR (s : State) (i : BitVec 4) : Desc := vget {} s.sep.t i.toNat

/-- Writes a tensor descriptor register. -/
def tW (i : BitVec 4) (d : Desc) (s : State) : State :=
  { s with sep := { s.sep with t := vset s.sep.t i.toNat d } }

/-- A byte of data memory (R80). -/
def dmByte (s : State) (a : Nat) : Byte := mget 0 s.dmem a

/-- Eight bytes of data memory, little-endian (R5, R90). -/
def dmRead (s : State) (a : Nat) : Word :=
  BitVec.ofNat 64 (ofBytes ((List.range 8).map fun i => dmByte s (a + i)))

/-- Bytes of data memory. -/
def dmBytes (s : State) (a n : Nat) : List Byte := (List.range n).map fun i => dmByte s (a + i)

/-- Writes bytes into a list of cells. -/
def putBytes : List Byte → Nat → List Host.Cell → List Host.Cell
  | [], _, m => m
  | b :: r, a, m => putBytes r (a + 1) (mset 0 m a b)

/-- Writes bytes to data memory. -/
def dmWrite (a : Nat) (l : List Byte) (s : State) : State := { s with dmem := putBytes l a s.dmem }

/-- The bytes of data memory (R80). -/
abbrev dmSize : Nat := 262144

/-- What an instruction's body answers (R84, R85, R91, R109). `trap` carries the fault code, the INFO
word (none: the manual states no value), the entry concerned, and whether it is the software trap. -/
inductive SepRes where
  | done (s : State)
  | goto (s : State) (pc : BitVec 15)
  | wait (cause : Nat) (s : State)
  | trap (code : Nat) (info : Option (BitVec 32)) (entry : Option Nat) (sw : Bool)

/-- SEP_TRAP's word (R110). -/
def trapWord (code : Nat) (info : BitVec 32) (sw : Bool) (pc : BitVec 15) : Word :=
  pack [(32, info.toNat), (16, code), (15, b1 sw), (0, pc.toNat)]

/-- FLT_INFO of a trapping fault (R375): the pair and side for SEM_OVERFLOW, SEP_TRAP otherwise. -/
def trapInfo (code : Nat) (info : BitVec 32) (w : Word) : Word := if code = 0x15 then info.setWidth 64 else w

/-- After an instruction left issue: nothing is held, and a single step ends in HALTED (R111). -/
def leaveIssue (s : State) : State :=
  { s with sep := { s.sep with
      held := none, wait := 0, mapStall := none, stepping := false,
      st := if s.sep.stepping then .halted else s.sep.st } }

/-- The read-backs a held fence has asked for are as if never asked for (R109, R111): what is still to come of them answers to no fence. -/
def readVoid (s : State) : State :=
  orphan (fun o => match o with | .sepBar .. => true | _ => false)
    { s with readback := s.readback.map fun b => if b.ring then b else { b with st := 0 } }

/-- Taking a trap (R109): SEP_TRAP is written and the fault raised; then the handler is entered, or
the separator is TRAPPED at the faulting instruction. What the instruction did while it waited is void. -/
def takeTrap (code : Nat) (info : Option (BitVec 32)) (entry : Option Nat) (sw : Bool) (s : State) : State :=
  let i := info.getD (Config.freeTrapInfo s.freeCtr)
  let s := if info.isNone then tickFree s else s
  let w := trapWord code i sw s.sep.pc
  let s := { s with sep := { s.sep with trap := w } }
  let s := readVoid (if sw then s else raise code (recWord entry 0xFF 0 0) (trapInfo code i w) s)
  let ctl := rd s .sepCtl
  let s :=
    if bit ctl 3 && !s.sep.inh then
      gW 62 (s.sep.pc.setWidth 64) { s with sep := { s.sep with inh := true, pc := BitVec.ofNat 15 (fld ctl 46 32) } }
    else { s with sep := { s.sep with st := .trapped, stepping := false } }
  settle (leaveIssue s)

/-- Whether a guard holds (R84). -/
def guardOk (g : Guard) (s : State) : Bool := pR s g.pr ^^ g.pn

/-- Whether the separator can issue instruction `i` now: it runs, and holds no other instruction (R85). -/
def canIssue (i : Instr) (s : State) : Bool :=
  live s && s.sep.st == .running && (s.sep.held.isNone || s.sep.held == some i)

/-- The next index, or ILLEGAL_OP past the last one (R91); `s0` is the state before the instruction. -/
def advance (s0 s : State) : Out :=
  if s0.sep.pc = 32767 then .next (takeTrap 0x14 none none false s0)
  else .next (settle (leaveIssue { s with sep := { s.sep with pc := s0.sep.pc + 1 } }))

/-- Issues an instruction (R83 to R85, R91, R109). -/
def issue (i : Instr) (g : Guard) (body : State → SepRes) (s : State) : Out :=
  if !canIssue i s then .next s
  else if !wf i then .next (takeTrap 0x14 none none false s)
  else if !guardOk g s then advance s s
  else
    match body s with
    | .done s' => advance s s'
    | .goto s' pc => .next (settle (leaveIssue { s' with sep := { s'.sep with pc := pc } }))
    | .wait c s' => .next (settle { s' with sep := { s'.sep with held := some i, wait := BitVec.ofNat 4 c } })
    | .trap c info e sw => .next (takeTrap c info e sw s)

/-- The end of a command: requests are formed afresh (R381). -/
def done (s : State) : Out := .next (settle s)

end Sys2Proof.Machine
end

