-- ==== Sys2Proof/Machine/Operands.lean ====
section
/-! DEFINITION. The operand forms of the separator: descriptor fields (R82), immediates and the results of the
scalar instructions (R88, R89). -/

namespace Sys2Proof.Machine

/-- ENTRY of a descriptor (R82). -/
def Desc.entry (d : Desc) : Nat := fld d.w0 63 47
/-- FMT. -/
def Desc.fmt (d : Desc) : Nat := fld d.w0 46 43
/-- FLOOR_FMT. -/
def Desc.floorFmt (d : Desc) : Nat := fld d.w0 42 39
/-- LSL. -/
def Desc.lsl (d : Desc) : Bool := bit d.w0 38
/-- PIN. -/
def Desc.pin (d : Desc) : Bool := bit d.w0 37
/-- CTX. -/
def Desc.ctx (d : Desc) : Nat := fld d.w0 36 23
/-- SEM. -/
def Desc.sem (d : Desc) : Nat := fld d.w0 22 11
/-- CBGEN. -/
def Desc.cbgen (d : Desc) : Nat := fld d.w0 10 7
/-- SWT. -/
def Desc.swt (d : Desc) : Nat := fld d.w0 6 3
/-- NEED. -/
def Desc.need (d : Desc) : Nat := fld d.w1 63 32
/-- RECIPE. -/
def Desc.recipe (d : Desc) : Nat := fld d.w1 31 16
/-- LAYER. -/
def Desc.layer (d : Desc) : Nat := fld d.w1 15 0
/-- NBLK. -/
def Desc.nblk (d : Desc) : Nat := fld d.w2 63 24
/-- ROW. -/
def Desc.row (d : Desc) : Nat := fld d.w2 23 0
/-- CHMASK. -/
def Desc.chmask (d : Desc) : BitVec 32 := d.w3.extractLsb' 32 32
/-- CHAIN. -/
def Desc.chain (d : Desc) : Nat := fld d.w3 31 24

/-- Word `i` of a descriptor. -/
def Desc.word (d : Desc) (i : BitVec 2) : Word :=
  match i.toNat with
  | 0 => d.w0
  | 1 => d.w1
  | 2 => d.w2
  | _ => d.w3

/-- Replaces word `i` of a descriptor. -/
def Desc.setWord (d : Desc) (i : BitVec 2) (v : Word) : Desc :=
  match i.toNat with
  | 0 => { d with w0 := v }
  | 1 => { d with w1 := v }
  | 2 => { d with w2 := v }
  | _ => { d with w3 := v }

/-- The churns of a mask, in increasing order. -/
def maskList (m : BitVec 32) : List Nat := (List.range 32).filter fun n => m.getLsbD n

/-- An I-format immediate, sign-extended to 64 bits. -/
def imm36 (i : BitVec 36) : Word := i.signExtend 64

/-- A T-format immediate, sign-extended to 64 bits. -/
def imm26 (i : BitVec 26) : Word := i.signExtend 64

/-- The shift amount b[5:0] (R89). -/
def shAmt (b : Word) : Nat := fld b 5 0

/-- The smaller of two's-complement numbers. -/
def minS (a b : Word) : Word := if a.slt b then a else b

/-- The larger of two's-complement numbers. -/
def maxS (a b : Word) : Word := if a.slt b then b else a

/-- The smaller of unsigned numbers. -/
def minU (a b : Word) : Word := if a.ult b then a else b

/-- The larger of unsigned numbers. -/
def maxU (a b : Word) : Word := if a.ult b then b else a

/-- The high 64 bits of the unsigned product. -/
def mulHi (a b : Word) : Word := BitVec.ofNat 64 (a.toNat * b.toNat / 2 ^ 64)

/-- a div b; all ones when b = 0 (R89). -/
def divU (a b : Word) : Word := if b = 0 then 0xFFFFFFFFFFFFFFFF else a / b

/-- a mod b; a when b = 0 (R89). -/
def remU (a b : Word) : Word := if b = 0 then a else a % b

/-- The result of lih (R89). -/
def lihVal (d : Word) (imm : BitVec 28) : Word := (d &&& 0xFFFFFFFFF) ||| (imm.setWidth 64 <<< 36)

end Sys2Proof.Machine
end

