-- ==== Sys2Proof/Machine/RegRead.lean ====
section
/-! DEFINITION. What every register reads (R384), from the parts of State that hold its content, and the reads
that clear (RC fields, R8, R378). -/

namespace Sys2Proof.Machine

/-- The code of an entry's state (R62). -/
def ESt.code : ESt → Nat
  | .free => 0
  | .filling => 1
  | .resident => 2
  | .spilling => 3
  | .spilled => 4
  | .recalling => 5
  | .dropped => 6
  | .released => 7

/-- Word `i` of an entry, laid out as R62 gives. -/
def entWord (x : Entry) (i : Nat) : Word :=
  match i with
  | 0 => pack [(61, ESt.code x.st), (57, x.fmt.toNat), (53, x.cur.toNat), (49, x.floor.toNat), (48, b1 x.lsl),
      (47, b1 x.pin), (24, x.recipe.toNat), (0, x.mapLen.toNat)]
  | 1 => pack [(46, x.mapBase.toNat), (0, x.need.toNat)]
  | 2 => pack [(24, x.sectors.toNat), (8, x.epoch.toNat), (0, x.refs.toNat)]
  | _ => pack [(28, x.cold.toNat), (12, x.layer.toNat)]

/-- SEP_STAT (R111). -/
def sepStat (s : State) : Word :=
  pack [(16, s.sep.pc.toNat), (9, b1 s.step.open_), (8, b1 s.sep.inh), (4, s.sep.wait.toNat),
    (0, match s.sep.st with | .halted => 0 | .running => 1 | .trapped => 2)]

/-- Map pages in use: the runs of every entry that is not FREE (R59). -/
def mapRuns (s : State) : List (Nat × Nat) :=
  (s.dir.filter fun x => x.2.mapLen != 0).map fun x => (x.2.mapBase.toNat, cdiv x.2.mapLen.toNat 512)

/-- CEL_MAP_FREE (R73). -/
def mapFree (s : State) : Nat := mapPages s - (mapRuns s).foldl (fun a x => a + x.2) 0

/-- Whether an entry holds a cold extent (R62, R70). -/
def hasCold (x : Entry) : Bool := x.st == .spilling || x.st == .spilled || x.st == .recalling

/-- COLD_SIZE (R69). -/
def coldSize (s : State) : Nat := fld (rd s .coldSize) 35 0

/-- COLD_FREE (R73). `cold` lists the extents in use: offset and length in 4 KiB units. -/
def coldFree (s : State) : Nat := coldSize s - s.cold.foldl (fun a x => a + x.2) 0

/-- CH_CEL_FREE (R73). -/
def celFree (s : State) (n : Nat) : Nat := dataChunks s - (churnAt s n).chunks.length

/-- The least free count over the churns (R74, R129). -/
def minFree (s : State) : Nat := (List.range 32).foldl (fun m n => min m (celFree s n)) (dataChunks s)

/-- CEL_STAT (R74). -/
def celStat (s : State) : Word :=
  if s.hasCellar then
    pack [(8, s.ladder.stalled.toNat), (4, s.ladder.actions.length), (3, b1 s.ladder.active), (0, s.ladder.rung.toNat)]
  else 0

/-- The code of a churn power state (R356). -/
def PSt.code : PSt → Nat
  | .active => 0
  | .idle => 1
  | .sleep => 2
  | .off => 3

/-- Whether an op is a stream op, in the sense of R261: it holds stage buffer. -/
def isStreamOp (o : RunOp) : Bool := o.op.kind == .sin || o.op.kind == .sout || o.op.kind == .cop

/-- CH_STAT (R389). -/
def chStat (s : State) (n : Nat) : Word :=
  let c := churnAt s n
  let a := c.pwr == .active
  pack [(39, if a then c.queue.length else 0),
    (36, if a then (c.run.filter isStreamOp).length else 0), (28, if a then c.opens.length else 0),
    (3, b1 (s.ladder.stalled.getLsbD n)), (2, b1 (c.lgup == 0xFFFF)), (0, PSt.code c.pwr)]

/-- The code of a context's state. -/
def CSt.code : CSt → Nat
  | .closed => 0
  | .opened => 1
  | .aborted => 2

/-- The code of a generation's state (R149). -/
def GSt.code : GSt → Nat
  | .free => 0
  | .live => 1
  | .draining => 2

/-- Whether a bank that is not active is still used by an op: table `t` is draining (R208). -/
def draining (c : Churn) (t : Nat) : Bool := c.run.any fun o => o.usesF && o.banks.getLsbD t != c.active.getLsbD t

/-- CH_FT_BANK (R208). -/
def ftBank (c : Churn) : Word :=
  (List.range 8).foldl (fun w t =>
    let b := vget {} c.banks t
    w + pack [(32 + 2 * t, b1 b.a.isSome), (33 + 2 * t, b1 b.b.isSome), (16 + t, b1 (draining c t)),
      (t, b1 (c.active.getLsbD t))]) 0

/-- FT_STAT.PEND: tables draining in some churn (R208). -/
def ftPend (s : State) : Nat :=
  (List.range 8).foldl (fun a t => a + b1 (s.churns.toList.any fun c => draining c t) * 2 ^ t) 0

/-- CH_AFLAG_HEAD (R196). -/
def aflagHead (c : Churn) : Word :=
  match c.flags with
  | [] => 0
  | f :: _ => pack [(40, f.stream.toNat), (32, f.op.toNat), (5, f.unit.toNat), (2, 1), (1, b1 f.ovf), (0, b1 f.nonfin)]

/-- The code of a channel's state (R233). -/
def ChSt.code : ChSt → Nat
  | .idle => 0
  | .queued => 1
  | .active => 2
  | .halted => 3
  | .aborting => 4

/-- STAT of a channel. -/
def chanStat (c : Chan) : Word :=
  pack [(32, c.sgidx.toNat), (16, c.err.toNat), (15, b1 c.dir), (6, b1 c.pend), (5, b1 c.abt), (4, b1 c.flt),
    (3, b1 c.done), (0, ChSt.code c.st)]

/-- The physical unit of byte `w` of a sealed range as it is written (R335). -/
def physAt (x : Xfer) (w : Nat) : Nat := x.phys + w / 4096

/-- Whether byte `w` of a sealed range lies in a tag unit: the one after the 128 data units of a group, or after those of the last. -/
def onTag (x : Xfer) (w : Nat) : Bool :=
  x.cover == .sealHba && physAt x w % 129 == min 128 (x.uend - 128 * (physAt x w / 129))

/-- The plaintext bytes before byte `w` of the destination as it is written (R335, R338): tag units and
seal records count for nothing. -/
def plainPos (x : Xfer) (w : Nat) : Nat :=
  match x.cover with
  | .sealHba => (physAt x w - physAt x w / 129) * 4096 + (if onTag x w then 0 else w % 4096) - x.base
  | .sealPeer => w / 4160 * 4096 + min (w % 4160) 4096
  | _ => w

/-- The number of a channel among all transfers: hub channels 0 to 63, pails from 100 on. -/
def chanNo : ChanId → Nat
  | .hub c => c.toNat
  | .pail n c => 100 + 8 * n.toNat + c.toNat

/-- The writes of transfer `c` that are issued and not answered, by destination position. -/
def openWrites (s : State) (c : Nat) : List Nat :=
  let w (o : Owner) : Option Nat := match o with | .chanWr d p => if d = c then some p else none | _ => none
  s.inflight.filterMap (fun f => w f.owner) ++ s.dead.filterMap (fun f => w f.owner)
    ++ s.txq.filterMap fun x => x.owner.bind w

/-- The position of a posted write of transfer `c` that waits in its port's queue: it is not issued yet, and it is the last one. -/
def queuedWrites (s : State) (c : Nat) (x : Xfer) : List Nat :=
  s.txq.filterMap fun y => if y.src == some c && y.owner.isNone && y.m.opc == 3 then some (x.wpos - (y.m.len + 1)) else none

/-- The first destination byte of transfer `c` whose write has not returned OK or has not been issued. -/
def firstOpen (s : State) (c : Nat) (x : Xfer) : Nat := (x.fails ++ openWrites s c ++ queuedWrites s c x).foldl min x.wpos

/-- The position of transfer `c`: its first byte whose write has not returned OK or has not been issued (R230). -/
def position (s : State) (c : Nat) (x : Xfer) : Nat := x.base + plainPos x (firstOpen s c x)

/-- LEN of the active descriptor. -/
def chanLen (c : Chan) : Nat := fld c.act.len 39 0

/-- RESID: while the channel runs, the present residue (R233). -/
def chanResid (s : State) (i : ChanId) : Nat :=
  let c := chanAt s i
  if c.st == .active || c.st == .aborting then chanLen c - position s (chanNo i) c.x else c.resid.toNat

/-- A descriptor without its reserved bits, which its registers do not hold (R9, R216). -/
def Dsc.stored (d : Dsc) : Dsc :=
  let m (k : Nat) : Word := (Reg.desc (.chan (.hub 0) k)).rw
  { src := d.src &&& m 0, dst := d.dst &&& m 1, len := d.len &&& m 2, cfg := d.cfg &&& m 3, sgl := d.sgl &&& m 4, sig := d.sig &&& m 5 }

/-- Word `k` of a channel's register block. -/
def chanWord (s : State) (i : ChanId) (k : Nat) : Word :=
  let c := chanAt s i
  match k with
  | 0 => c.sh.src
  | 1 => c.sh.dst
  | 2 => c.sh.len
  | 3 => c.sh.cfg
  | 4 => c.sh.sgl
  | 5 => c.sh.sig
  | 7 => chanStat c
  | 8 => BitVec.ofNat 64 (chanResid s i)
  | 9 => c.erraddr
  | _ => 0

/-- The code of a ring's state (R277). -/
def RSt.code : RSt → Nat
  | .off => 0
  | .idle => 1
  | .fetching => 2
  | .executing => 3
  | .stalled => 4

/-- N of a ring (R265). -/
def ringN (s : State) (r : Nat) : Nat := 2 ^ (max 1 (fld (rd s (.ringCfg r)) 11 8))

/-- HEAD of a ring (R265). -/
def ringHead (s : State) (r : Nat) : Nat := (ringAt s r).count % (2 * ringN s r)

/-- Free ticket slots (R108). -/
def ticketsFree (s : State) : Nat := 256 - (s.tickets.filter fun x => x.2.taken).length

/-- The smallest op queue credit counter (R108). -/
def qMin (s : State) : Nat := (List.range 32).foldl (fun m n => min m (churnAt s n).credit.toNat) 511

/-- A special register of the separator (R108). -/
def specialReg (s : State) (i : Nat) : Word :=
  match i with
  | 0 => s.sys.aon.setWidth 64
  | 1 => s.sep.cyc
  | 2 => s.sep.layer
  | 3 => s.step.step
  | 4 => s.step.depoch.setWidth 64
  | 5 => s.sep.astat.setWidth 64
  | 6 => rd s .chipId
  | 7 => s.sys.mode.setWidth 64
  | 8 => BitVec.ofNat 64 (qMin s)
  | 9 => BitVec.ofNat 64 (ticketsFree s)
  | _ => 0

/-- CHIP_ID (R387). -/
def chipId (s : State) : BitVec 17 := (rd s .chipId).setWidth 17

/-- STEP_STAT (R314 to R316). -/
def stepStat (s : State) : Word :=
  pack [(32, s.step.statStep.toNat), (11, b1 s.step.late), (8, s.step.latched.toNat), (2, b1 s.step.ready),
    (1, b1 s.step.pabt), (0, b1 s.step.pcmt)]

/-- SNAP_STAT. -/
def snapStat (s : State) : Word :=
  pack [(4, s.snap.err.toNat), (2, b1 s.snap.rbusy), (1, b1 s.snap.busy), (0, b1 s.snap.due)]

/-- NV_STAT. -/
def nvStat (s : State) : Word :=
  pack [(41, s.nv.boot.toNat), (16, s.nv.skip.toNat), (8, s.nv.err.toNat), (1, b1 s.nv.src), (0, b1 s.nv.busy.isSome)]

/-- SYS_STAT (R366). -/
def sysStat (s : State) : Word :=
  pack [(7, b1 s.sys.aons), (6, b1 s.sys.cfgerr), (5, b1 s.sys.refloss), (4, b1 s.sys.lock), (0, s.sys.phase.toNat)]

/-- What a register reads. -/
def regVal (s : State) : Reg → Word
  | .sysStat => sysStat s
  | .modeStat => s.sys.mode.setWidth 64
  | .aonCnt => s.sys.aon.setWidth 64
  | .pwrStat => pack [(16, s.sys.blockEst.toNat), (0, s.sys.capEvt.toNat)]
  | .fltStat => s.flt.setWidth 64
  | .irqPend => BitVec.ofNat 64 (irqSrc s)
  | .irqStat => s.irqReq.setWidth 64
  | .evtStat => s.evt.setWidth 64
  | .hmvIrq => BitVec.ofNat 64 (hmvIrqBits s)
  | .chSum => BitVec.ofNat 64 (chSum s)
  | .irqMsgCtl v => rd s (.irqMsgCtl v) ||| pack [(3, b1 (s.irqPend.getLsbD v))]
  | .fltCnt c => (vget {} s.flts c).cnt.setWidth 64
  | .fltRec c => (vget {} s.flts c).what
  | .fltInfo c => (vget {} s.flts c).info
  | .fltTime c => (vget {} s.flts c).time.setWidth 64
  | .sepStat => sepStat s
  | .sepPc => s.sep.pc.setWidth 64
  | .sepTrap => s.sep.trap
  | .celStat => celStat s
  | .celMapFree => BitVec.ofNat 64 (mapFree s)
  | .coldFree => BitVec.ofNat 64 (coldFree s)
  | .dirData i => nth s.dirData i
  | .celEvtReenc => (vget 0 s.celEvt 0).setWidth 64
  | .celEvtSpill => (vget 0 s.celEvt 1).setWidth 64
  | .celEvtDrop => (vget 0 s.celEvt 2).setWidth 64
  | .celEvtStall => (vget 0 s.celEvt 3).setWidth 64
  | .celEvtRecallFetch => (vget 0 s.celEvt 4).setWidth 64
  | .planRawIn => s.plan.rawIn.setWidth 64
  | .planSectIn => s.plan.sectIn.setWidth 64
  | .planSectFetch => s.plan.sectFetch.setWidth 64
  | .planColdOut => s.plan.coldOut.setWidth 64
  | .planColdIn => s.plan.coldIn.setWidth 64
  | .planTkt => pack [(32, s.plan.tktFail.toNat), (0, s.plan.tktIssued.toNat)]
  | .planTktLatSum => s.plan.latSum.setWidth 64
  | .planTktLatMax => s.plan.latMax.setWidth 64
  | .planDefer => s.plan.defer.setWidth 64
  | .planFreeMin => s.plan.freeMin.setWidth 64
  | .planWaitCyc w => (vget 0 s.plan.wait w).setWidth 64
  | .cbStat => s.cbStat
  | .ftStat => s.ftStat ||| pack [(24, ftPend s)]
  | .ftCrc => s.ftCrc.setWidth 64
  | .ctxStat => s.ctxStat ||| pack [(2, CSt.code (mget {} s.ctxs (fld (rd s .ctxSel) 13 0)).st)]
  | .ctxProg => s.ctxProg.setWidth 64
  | .ctxRel => s.ctxRel.setWidth 64
  | .paceLt => pack [(48, s.paceLayer.toNat), (0, s.paceCyc.toNat)]
  | .paceMiss => s.paceMiss
  | .paceEvt => s.paceEvt.setWidth 64
  | .strmFlt => s.strmFlt
  | .semVal p => pack [(16, (pairAt s p).empty.toNat), (0, (pairAt s p).full.toNat)]
  | .hmvBnc => s.hmvBnc.setWidth 64
  | .ringDb _ => 0
  | .ringStat r =>
    pack [(19, b1 (ringAt s r).cdone), (16, if (ringAt s r).renew then 1 else RSt.code (ringAt s r).st), (0, ringHead s r)]
  | .ringDone r => (ringAt s r).doneCnt.setWidth 64
  | .p2pStat k =>
    let g := vget {} s.regions k
    pack [(4, g.pstat.toNat), (1, b1 g.bounce), (0, b1 g.ready)]
  | .p2pEvt k => (vget {} s.regions k).evt.setWidth 64
  | .prmHold k => pack [(16, mget 0 s.holds k)]
  | .schedLr k => (s.step.lr.getD k 0).setWidth 64
  | .stepStat => stepStat s
  | .snapLast => s.snap.last.setWidth 64
  | .snapCtl => pack [(0, b1 s.snap.area)]
  | .snapStat => snapStat s
  | .cryptErr => s.cryptErr
  | .cryptEvt => s.cryptEvt
  | .cryptNctr => s.nctr.setWidth 64
  | .keyCtl => BitVec.ofNat 64 ((List.range 8).foldl (fun a k => a + b1 (vget {} s.keys k).valid * 2 ^ k) 0)
  | .nvStat => nvStat s
  | .clStat => s.logTotal.setWidth 64
  | .clData i => nth s.clData i
  | .chStat n => chStat s n
  | .chPwrStat n =>
    let c := churnAt s n
    pack [(48, c.est.toNat), (40, c.temp.toNat), (4, c.lgup.toNat), (1, c.duty.toNat)]
  | .chPwrSt n => BitVec.ofNat 64 (PSt.code (churnAt s n).pwr)
  | .chLag n => (churnAt s n).lag
  | .chCelFree n => BitVec.ofNat 64 (celFree s n)
  | .chCelOwned n => BitVec.ofNat 64 (if s.hasCellar then (churnAt s n).chunks.length else 0)
  | .chPlanLslRaw n => (churnAt s n).lslRaw.setWidth 64
  | .chPlanLslSect n => (churnAt s n).lslSect.setWidth 64
  | .chPlanWhey n => (churnAt s n).whey.setWidth 64
  | .chCodecEvt n => (churnAt s n).codecEvt
  | .chCodecErr n => (churnAt s n).codecErr
  | .chCbState n g =>
    let x := vget {} (churnAt s n).gens g
    pack [(20, GSt.code x.st), (0, x.refs.toNat)]
  | .chFmtEvt n => (churnAt s n).fmtEvt
  | .chArithEvt n => (churnAt s n).arithEvt
  | .chFtBank n => ftBank (churnAt s n)
  | .chAflagStat n => pack [(48, (churnAt s n).lost.toNat), (0, (churnAt s n).flags.length)]
  | .chAflagHead n => aflagHead (churnAt s n)
  | .chAflagTile n => match (churnAt s n).flags with | [] => 0 | f :: _ => f.tile.setWidth 64
  | .chVslot n i =>
    let x := vget {} (churnAt s n).vslots i
    pack [(16, b1 x.f32), (0, x.v.length)]
  | .chUpdEvt n => (churnAt s n).updEvt
  | .chan c k => chanWord s c k
  | .imem i => mget 0 s.imem i
  | .dmem i => dmRead s (8 * i)
  | r => rd s r

/-- The bits of a register that a read clears (RC, R8). -/
def rcMask : Reg → Word
  | .fltCnt _ | .celEvtReenc | .celEvtSpill | .celEvtDrop | .celEvtStall | .celEvtRecallFetch | .paceEvt => 0xFFFFFFFF
  | .p2pEvt _ => 0xFFFFFFFFFFFF
  | .cryptEvt | .chLag _ | .chCodecEvt _ | .chFmtEvt _ | .chArithEvt _ | .chUpdEvt _ => 0xFFFFFFFFFFFFFFFF
  | .chAflagStat _ => 0xFFFF000000000000
  | _ => 0

/-- Keeps the bits of `m` in a register that a read clears. -/
def rcKeep (r : Reg) (m : Word) (s : State) : State :=
  match r with
  | .fltCnt c =>
    let f := vget {} s.flts c
    { s with flts := vset s.flts c { f with cnt := f.cnt &&& m.setWidth 32 } }
  | .celEvtReenc => { s with celEvt := vset s.celEvt 0 (vget 0 s.celEvt 0 &&& m.setWidth 32) }
  | .celEvtSpill => { s with celEvt := vset s.celEvt 1 (vget 0 s.celEvt 1 &&& m.setWidth 32) }
  | .celEvtDrop => { s with celEvt := vset s.celEvt 2 (vget 0 s.celEvt 2 &&& m.setWidth 32) }
  | .celEvtStall => { s with celEvt := vset s.celEvt 3 (vget 0 s.celEvt 3 &&& m.setWidth 32) }
  | .celEvtRecallFetch => { s with celEvt := vset s.celEvt 4 (vget 0 s.celEvt 4 &&& m.setWidth 32) }
  | .paceEvt => { s with paceEvt := s.paceEvt &&& m.setWidth 32 }
  | .p2pEvt k =>
    let g := vget {} s.regions k
    { s with regions := vset s.regions k { g with evt := g.evt &&& m.setWidth 48 } }
  | .cryptEvt => { s with cryptEvt := s.cryptEvt &&& m }
  | .chLag n => modChurn n (fun c => { c with lag := c.lag &&& m }) s
  | .chCodecEvt n => modChurn n (fun c => { c with codecEvt := c.codecEvt &&& m }) s
  | .chFmtEvt n => modChurn n (fun c => { c with fmtEvt := c.fmtEvt &&& m }) s
  | .chArithEvt n => modChurn n (fun c => { c with arithEvt := c.arithEvt &&& m }) s
  | .chUpdEvt n => modChurn n (fun c => { c with updEvt := c.updEvt &&& m }) s
  | .chAflagStat n => modChurn n (fun c => { c with lost := c.lost &&& m.extractLsb' 48 16 }) s
  | _ => s

/-- A read of a register: the bits the access addresses, and the state after the RC fields among them
are cleared (R7, R8, R378). -/
def regRead (sz : WSize) (r : Reg) (s : State) : Word × State :=
  (regVal s r &&& sizeMask sz, if rcMask r = 0 then s else rcKeep r (~~~ (rcMask r &&& sizeMask sz)) s)

end Sys2Proof.Machine
end

