-- ==== Sys2Proof/Machine/Cellar.lean ====
section
/-! DEFINITION. The cellar: map pages (R59), cold extents (R70, R71), chunks (R54 to R56, R67), the generation
tags of entries (R149), the moves of an entry (R64), and the escalation ladder (R74 to R79). -/

namespace Sys2Proof.Machine

/-! ## Map pages and cold extents -/

/-- Whether the run of `k` from `p` meets none of the runs `u`. -/
def runFree (u : List (Nat × Nat)) (p k : Nat) : Bool := u.all fun x => decide (p + k ≤ x.1) || decide (x.1 + x.2 ≤ p)

/-- The first start of a free run of `k` below `lim`: at 0 or just behind a run in use. -/
def firstFit (u : List (Nat × Nat)) (k lim : Nat) : Option Nat :=
  let c := (0 :: u.map fun x => x.1 + x.2).filter fun p => decide (p + k ≤ lim) && runFree u p k
  c.foldl (fun a p => match a with | none => some p | some q => some (min p q)) none

/-- map_alloc of R94: the first page of a free run, first fit. -/
def mapAlloc (s : State) (len : Nat) : Option Nat :=
  if s.hasCellar then firstFit (mapRuns s) (cdiv len 512) (mapPages s) else none

/-- CRYPT_CFG.MODE; 3 acts as 2 (R334). -/
def cryptMode (s : State) : Nat := min (fld (rd s .cryptCfg) 1 0) 2

/-- Units of 4 KiB churn `n`'s segment of entry `e` occupies (R71). -/
def segUnits (s : State) (n e : Nat) : Nat := cdiv (64 + 64 * mget 0 (churnAt s n).sects e) 4096

/-- The logical units of an entry's extent: one segment for each churn of its CHMASK (R71). -/
def extentLogical (s : State) (e : Nat) : Nat :=
  (maskList (entAt s e).chmask).foldl (fun a n => a + segUnits s n e) 0

/-- Units of `u` logical units with their tag units, when they are covered (R335). -/
def withTags (covered : Bool) (u : Nat) : Nat := if covered then u + cdiv u 128 else u

/-- The units of an entry's extent (R71, R335). -/
def extentUnits (s : State) (e : Nat) : Nat := withTags (cryptMode s != 0) (extentLogical s e)

/-- The free extents of the cold cellar. -/
def coldGaps (s : State) : Nat :=
  let r := s.cold.foldl (fun (a : Nat × Nat) x => (a.1 + b1 (decide (a.2 < x.1)), x.1 + x.2)) (0, 0)
  r.1 + b1 (decide (r.2 < coldSize s))

/-- A cold extent of `k` units, first fit; none where none is large enough or the free list is full (R70). -/
def coldAlloc (s : State) (k : Nat) : Option Nat :=
  if coldGaps s ≥ 1024 then none else firstFit s.cold k (coldSize s)

/-- Returns an entry's cold extent. -/
def coldFreeEnt (e : Nat) (s : State) : State :=
  if hasCold (entAt s e) then { s with cold := mdel s.cold (entAt s e).cold.toNat } else s

/-! ## Chunks -/

/-- What an unlisted chunk reads as: no owner. -/
def noChunk : Chunk := { e := 131072 }

/-- An open chunk slot with nothing open. -/
def noOpen : OpenChunk := { c := 0, next := 16385 }

/-- Updates PLAN_FREE_MIN (R129). -/
def noteFree (s : State) : State :=
  if bit (rd s .planCtl) 1 then s
  else
    let f := BitVec.ofNat 17 (minFree s)
    if f < s.plan.freeMin then { s with plan := { s.plan with freeMin := f } } else s

/-- Whether churn `n` can allocate a chunk now: none is marked for return (R67), and one is free. -/
def freeChunk (s : State) (n : Nat) : Option Nat :=
  let c := churnAt s n
  if c.chunks.any fun x => x.2.marked then none
  else
    let k := mfree 0 c.chunks
    if k < dataChunks s then some k else none

/-- Allocates the free chunk with the lowest address to entry `e` (R54). -/
def takeChunk (n e k : Nat) (s : State) : State :=
  noteFree (modChurn n (fun c => { c with chunks := mset noChunk c.chunks k { e := e } }) s)

/-- Marks every chunk of entry `e` in churn `n` for return, and ends its writing there (R67). -/
def markChunks (e n : Nat) (s : State) : State :=
  modChurn n (fun c => { c with
    chunks := mmap noChunk (fun _ x => if x.e = e then { x with marked := true } else x) c.chunks
    opens := mset noOpen c.opens e noOpen
    sects := mset 0 c.sects e 0 }) s

/-- Marks some chunks of churn `n` for return. -/
def markSome (l : List Nat) (n : Nat) (s : State) : State :=
  modChurn n (fun c => { c with
    chunks := mmap noChunk (fun k x => if l.contains k then { x with marked := true } else x) c.chunks }) s

/-- The sectors a write of `k` sectors for entry `e` gets in churn `n`: in the open chunk if they fit, else in
a new one; none while it has to wait (R55, R56, R67). -/
def placeSectors (n e k : Nat) (s : State) : Option (Nat × State) :=
  let c := churnAt s n
  let o := mget noOpen c.opens e
  if o.next + k ≤ 16384 then
    some (chunkLocal s o.c + 64 * o.next, setChurn s n { c with opens := mset noOpen c.opens e { o with next := o.next + k } })
  else if o.next = 16385 ∧ c.opens.length ≥ 64 then none
  else
    match freeChunk s n with
    | none => none
    | some q =>
      let s := takeChunk n e q s
      some (chunkLocal s q,
        modChurn n (fun c => { c with opens := mset noOpen c.opens e { c := q, next := k } }) s)

/-- Ends the writing of entry `e` in churn `n`: its open chunk closes (R56). -/
def closeChunk (n e : Nat) (s : State) : State :=
  modChurn n (fun c => { c with opens := mset noOpen c.opens e noOpen }) s

/-! ## Generation tags -/

/-- FORCE_FREE's guard: a churn that has not yet applied it gives no reference to its generation (R151). -/
def genBarred (s : State) (n g : Nat) : Bool := s.cbJob.op == 3 && s.cbJob.left.getLsbD n && fld s.cbStat 7 4 == g

/-- A generation of churn `c` with `d` more references (R149). -/
def refGen (g : BitVec 4) (up : Bool) (c : Churn) : Churn :=
  let x := vget {} c.gens g.toNat
  let r := if up then x.refs + 1 else x.refs - 1
  let st := if x.st == .draining && r == 0 then .free else x.st
  { c with gens := vset c.gens g.toNat { x with refs := r, st := st } }

/-- Sets the tag of entry `e`, moving the entry reference from the old tag (R149). -/
def setTag (e : Nat) (t : Tag) (c : Churn) : Churn :=
  let c := match mget Tag.none c.tags e with | .gen g => refGen g false c | _ => c
  let c := match t with | .gen g => refGen g true c | _ => c
  { c with tags := mset Tag.none c.tags e t }

/-! ## Moves of an entry -/

/-- Does `f` for every churn. -/
def allChurns (f : Nat → State → State) (s : State) : State := (List.range 32).foldl (fun s n => f n s) s

/-- Returns an entry's chunks and cold extent: the chunks are marked, the tag becomes NONE (R64, R67, R149). -/
def returnStorage (e : Nat) (s : State) : State :=
  allChurns (fun n s => modChurn n (setTag e .none) (markChunks e n s)) (coldFreeEnt e s)

/-- An entry that becomes FREE: all four words are cleared (R68). -/
def freeEntry (e : Nat) (s : State) : State :=
  allChurns (fun n s => modChurn n (fun c => { c with
    lines := c.lines.filter (fun l => l.e != e), mapPend := c.mapPend.filter fun w => w.1 != e }) s) (setEnt s e {})

/-- A RELEASED entry whose REFS reached 0 becomes FREE (R64). -/
def settleRefs (e : Nat) (s : State) : State :=
  let x := entAt s e
  if x.st == .released && x.refs == 0 then freeEntry e s else s

/-- REFS falls when the last churn finishes an op (R63). -/
def dropRef (e : Nat) (s : State) : State :=
  settleRefs e (modEnt e (fun x => { x with refs := x.refs - 1 }) s)

/-- A fault of the directory or the ladder. -/
def dirFault (c : Nat) (e : Option Nat) (info : Nat) (s : State) : State :=
  raise c (recWord e 0xFF 0 1) (BitVec.ofNat 64 info) s

/-- CELLAR_FULL with a cause: 0 MAP, 1 COLD, 2 STALL (R375). -/
def cellarFull (cause : Nat) (e : Option Nat) (s : State) : State := dirFault 8 e cause s

/-- Adds 1 to a ladder event counter (R78). -/
def bumpCel (i : Nat) (s : State) : State := { s with celEvt := vset s.celEvt i (satAdd (vget 0 s.celEvt i) 1) }

/-- The data credits that churn `n`'s stall keeps back from the blocks of entry `e` go to the producer (R77, R78). -/
def keptBack (e n : Nat) (s : State) : State :=
  let mine (o : RunOp) : Bool := o.op.kind == .sin && o.op.desc.entry == e
  let k := ((churnAt s n).run.filter mine).foldl (fun a o => a + o.kept) 0
  if k = 0 then s
  else
    let p := portAt s (fpP n)
    setPort (modChurn n (fun c => { c with run := lmod mine (fun o => { o with kept := 0 }) c.run }) s) (fpP n) { p with owed := p.owed - k }

/-- An entry becomes DROPPED: its storage is returned, and the credits withheld for the blocks that it now discards (R64, R77). -/
def dropEntry (e : Nat) (s : State) : State :=
  allChurns (keptBack e) (modEnt e (fun x => { x with st := .dropped, sectors := 0, cold := 0 }) (returnStorage e s))

/-! ## The ladder -/

/-- CEL_WM's marks: STALL, LWM, HWM; all STALL when their order is broken (R74). -/
def watermarks (s : State) : Nat × Nat × Nat :=
  let w := rd s .celWm
  let st := fld w 47 32
  let lw := fld w 31 16
  let hw := fld w 15 0
  if st < lw ∧ lw ≤ hw then (st, lw, hw) else (st, st, st)

/-- The format one step coarser (R76). -/
def coarser (f : Nat) : Option Nat :=
  match f with
  | 0 | 1 => some 5
  | 2 => some 0
  | 3 | 5 | 7 => some 8
  | 4 | 6 => some 9
  | 8 | 9 => some 0xA
  | _ => none

/-- Whether `t` lies on the coarsening chain from `f`, in at most `k` steps. -/
def onChain (t : Nat) : Nat → Nat → Bool
  | 0, f => f == t
  | k + 1, f => f == t || match coarser f with | some g => onChain t k g | none => false

/-- Whether a re-encode of entry `e` is in progress (R66). -/
def reencoding (s : State) (e : Nat) : Bool :=
  s.ladder.actions.any fun a => a.e == e && a.rung == .reenc

/-- Whether entry `e` is a candidate for rung `k` (R75, R76, R79). Rung 1 goes down to FLOOR_FMT and no further, also where dset has
set it behind CUR_FMT on the chain (R114). -/
def candidate (s : State) (k : Nat) (e : Nat) (x : Entry) : Bool :=
  !x.pin && !(s.ladder.actions.any fun a => a.e == e) && !s.ladder.passed.contains (4 * e + k) &&
  match k with
  | 1 =>
    x.st == .resident && x.refs == 0 && x.cur != x.floor && x.floor != x.fmt && (coarser x.cur.toNat).isSome
    && onChain x.floor.toNat 8 x.fmt.toNat && onChain x.floor.toNat 8 x.cur.toNat
  | 2 => x.st == .resident && x.refs == 0 && (coldAlloc s (extentUnits s e)).isSome
  | _ => x.recipe != 0 && (x.st == .filling || (x.st == .resident && x.refs == 0))

/-- pick of R74: the candidate with the largest NEED, the lower index on a tie. The rule's 0 stands both for "no candidate" and for an
entry's index; here entry 0 can be picked like any other, and `none` says that there is no candidate (log entry 71). -/
def pick (s : State) (k : Nat) : Option Nat :=
  (s.dir.foldl (fun (a : Option (Nat × Nat)) x =>
    if candidate s k x.1 x.2 then
      match a with
      | none => some (x.1, x.2.need.toNat)
      | some (e, n) => if n < x.2.need.toNat then some (x.1, x.2.need.toNat) else some (e, n)
    else a) none).map (·.1)

/-- Chunks entry `e` owns in churn `n`. -/
def ownedBy (s : State) (n e : Nat) : Nat := ((churnAt s n).chunks.filter fun x => x.2.e == e).length

/-- The chunks of entry `e` in churn `n` that are marked for return. -/
def markedBy (s : State) (n e : Nat) : Nat := ((churnAt s n).chunks.filter fun x => x.2.e == e && x.2.marked).length

/-- The chunks an action in progress will still return in churn `n` (R74, R75): those a spill's entry owns there, those that wait for
the sweep, or what is left of a re-encode's estimate, given what it has returned and taken so far (log entry 15). -/
def actionBack (s : State) (n : Nat) (a : Action) : Nat :=
  match a.rung with
  | .spill => ownedBy s n a.e
  | .ret => markedBy s n a.e
  | .reenc => a.back.getD n 0 + ownedBy s n a.e - a.had.getD n 0

/-- pending of R74: the chunks that actions in progress will return in churn `n`. -/
def pendingBack (s : State) (n : Nat) : Nat := s.ladder.actions.foldl (fun a x => a + actionBack s n x) 0

/-- pf of R74. -/
def projFree (s : State) : Nat :=
  (List.range 32).foldl (fun m n => min m (celFree s n + pendingBack s n)) (dataChunks s)

/-- Starts a rung-1 action: the entry gains a reference and every churn of its stripe an op (R76, R63, R66). -/
def startReenc (e : Nat) (s : State) : State :=
  let x := entAt s e
  let id := s.nextId
  let g := BitVec.ofNat 4 (fld (rd s .cbReenc) 3 0)
  let had := (List.range 32).map fun n => ownedBy s n e
  let back := (List.range 32).map fun n => min (Config.reencEstimate (s.freeCtr + n)) (ownedBy s n e)
  let op : ChurnOp :=
    { id := id, kind := .reenc, desc := { w0 := pack [(47, e)] }, fmt := BitVec.ofNat 4 ((coarser x.cur.toNat).getD 0),
      cur := x.cur, lsl := x.lsl, mask := x.chmask, swt := x.swt, elems := x.elems, rank := x.rank }
  let start (s : State) (n : Nat) : State :=
    modChurn n (fun c =>
      let live := x.lsl && (vget {} c.gens g.toNat).st == .live && !genBarred s n g.toNat
      let c := if live then refGen g true c else c
      { c with run := c.run ++ [{ op := { op with gen := if live then some g else none, noGen := x.lsl && !live },
                                  key := rd s .drawKey, step := s.step.step }] }) s
  let s := (maskList x.chmask).foldl start s
  let s := modEnt e (fun x => { x with refs := x.refs + 1 }) s
  { s with
    nextId := id + 1
    freeCtr := s.freeCtr + 32
    tasks := s.tasks ++ [{ id := id, op := op, left := x.chmask, prog := false }]
    ladder := { s.ladder with actions := s.ladder.actions ++ [{ e := e, rung := .reenc, back := back, had := had }] } }

/-- Starts a spill of entry `e`: a cold extent is allocated and the entry is SPILLING (R64, R70, R214). The
transfer takes the lowest free system channel when one is free (`ladder`: rung 2 asked). -/
def startSpill (e : Nat) (ladder : Bool) (s : State) : State :=
  match coldAlloc s (extentUnits s e) with
  | none => s
  | some o =>
    let s := { s with cold := mset 0 s.cold o (extentUnits s e) }
    let s := modEnt e (fun x => { x with st := .spilling, cold := BitVec.ofNat 36 o, refs := x.refs + 1 }) s
    let s := { s with sysWait := s.sysWait ++ [.spill e ladder] }
    if ladder then
      { s with ladder := { s.ladder with actions := s.ladder.actions ++ [{ e := e, rung := .spill }] } }
    else s

/-- The actions whose chunks have all been returned end (R67, R74). -/
def endReturns (s : State) : State :=
  let l := s.ladder.actions.filter fun a => a.rung != .ret || (List.range 32).any fun n => markedBy s n a.e != 0
  { s with ladder := { s.ladder with actions := l } }

/-- The work of the action `k` on entry `e` is done; the action lasts until its chunks are returned. -/
def actionReturns (e : Nat) (k : Rung) (s : State) : State :=
  let l := s.ladder.actions.map fun a => if a.e = e ∧ a.rung = k then { a with rung := .ret } else a
  endReturns { s with ladder := { s.ladder with actions := l } }

/-- Starts a rung-3 action: the entry is DROPPED, and the action lasts until the sweeps have returned its chunks (R74, R77; log
entry 72). -/
def startDrop (e : Nat) (s : State) : State :=
  let s := bumpCel 2 (dropEntry e s)
  endReturns { s with ladder := { s.ladder with actions := s.ladder.actions ++ [{ e := e, rung := .ret }] } }

/-- Rung 4: every churn below the stall mark is stalled; CELLAR_FULL once per episode (R78). -/
def stallBelow (s : State) : State :=
  let st := (watermarks s).1
  let m := (List.range 32).foldl (fun (a : BitVec 32) n => if celFree s n < st then a ||| BitVec.ofNat 32 (2 ^ n) else a) 0
  let first := m != 0 && !s.ladder.stallRaised
  let s := if s.ladder.rung == 4 then s else bumpCel 3 s
  let s := { s with ladder := { s.ladder with rung := 4, stalled := s.ladder.stalled ||| m,
                                              stallRaised := s.ladder.stallRaised || first } }
  if first then cellarFull 2 none s else s

/-- The loop of R74. -/
def ladderLoop (hwm : Nat) (urgent : Bool) : Nat → State → State
  | 0, s => s
  | k + 1, s =>
    if projFree s ≥ hwm || s.ladder.actions.length ≥ 8 then s
    else
      let en := rd s .celLadder
      let p1 := if !urgent && bit en 0 then pick s 1 else none
      let p2 := if p1.isNone && !urgent && bit en 1 then pick s 2 else none
      let p3 := if p1.isNone && p2.isNone && bit en 2 then pick s 3 else none
      let up (r : Nat) (s : State) : State :=
        if s.ladder.rung.toNat < r then { s with ladder := { s.ladder with rung := BitVec.ofNat 3 r } } else s
      match p1, p2, p3 with
      | some e, _, _ => ladderLoop hwm urgent k (startReenc e (up 1 s))
      | none, some e, _ => ladderLoop hwm urgent k (startSpill e true (up 2 s))
      | none, none, some e => ladderLoop hwm urgent k (startDrop e (up 3 s))
      | none, none, none => stallBelow s

/-- Ends the stall of every churn whose free chunks reached the low watermark, and returns the credits it
withheld (R78). -/
def endStalls (s : State) : State :=
  let lw := (watermarks s).2.1
  (List.range 32).foldl (fun s n =>
    if s.ladder.stalled.getLsbD n && decide (lw ≤ celFree s n) then
      let p := portAt s (fpP n)
      let s := modChurn n (fun c => { c with run := c.run.map fun o => { o with kept := 0 } }) (setPort s (fpP n) { p with owed := 0 })
      { s with ladder := { s.ladder with stalled := s.ladder.stalled &&& ~~~ BitVec.ofNat 32 (2 ^ n) } }
    else s) s

/-- ladder_eval of R74. -/
def ladderEval (s : State) : State :=
  if !s.hasCellar then s
  else
    let s := endStalls s
    let (st, lw, hw) := watermarks s
    let f := minFree s
    if !s.ladder.active && f ≥ lw then s
    else
      let s := if s.ladder.active then s
        else { s with ladder := { s.ladder with active := true, rung := 0, stallRaised := false, passed := [] } }
      if f ≥ hw && s.ladder.actions.isEmpty then { s with ladder := { s.ladder with active := false } }
      else ladderLoop hw (f < st) 200000 s

/-- The ladder is evaluated where an action has ended since `s` (R74). -/
def evalEnded (s t : State) : State := if t.ladder.actions.length < s.ladder.actions.length then ladderEval t else t

/-- CHUNK_SWEEP, R67: the marked chunks of churn `n` return to its free bitmap. -/
def sweepChunks (n : Nat) (s : State) : State :=
  ladderEval (endReturns (modChurn n (fun c => { c with chunks := c.chunks.filter fun x => !x.2.marked }) s))

end Sys2Proof.Machine
end

