-- ==== Sys2Proof/Machine/Sync.lean ====
section
/-! DEFINITION. Stream contexts (R240 to R244), semaphore pairs (R249, R254, R255), tickets (R118 to R128), task
aborts (R263) and layer starts (R259), with the commands on them. -/

namespace Sys2Proof.Machine

/-! ## Requests at the ports -/

/-- Keeps a request in its port's bridge until the block can take it (R26, R360). -/
def hold (c : Instr) (s : State) : State := { s with bridges := s.bridges ++ [c] }

/-- Data credits that a request takes, by its opcode (R38). -/
def reqCredits (r : Req) : Nat :=
  match r.opc.toNat with
  | 2 | 3 => cdiv (r.len.toNat + 1) 64
  | 4 | 5 => 1
  | _ => 0

/-- The port and data credits of a request that may wait in a bridge. -/
def cmdPort : Instr → Option (PortId × Nat)
  | .inboundWrite n r => some (.fp n, reqCredits r)
  | .sig p r => some (p, reqCredits r)
  | .hbpTargetRequest r => some (.hbp, reqCredits r)
  | .cpRequest r => some (.cp, reqCredits r)
  | .ppTargetRequest r | .sealRecord r | .sealWindowRd r => some (.pp, reqCredits r)
  | .ticketDone _ | .layerStart _ | .semSignal _ | .ccpMessageDrop _ => some (.ccp, 1)
  | _ => none

/-- The origin and the register of the rows that stand for an access to one register. -/
def cmdAccess : Instr → Option (Org × Reg)
  | .sepCtlStart o _ | .sepCtlStop o _ | .sepCtlStep o _ => some (o, .sepCtl)
  | .sepPcWrite o _ => some (o, .sepPc)
  | .instructionMemoryWrite o i _ => some (o, .imem i.toNat)
  | .dataMemoryWrite o i _ => some (o, .dmem i.toNat)
  | .ctxOpen o | .ctxClose o | .ctxRead o => some (o, .ctxCmd)
  | .stripeWtWrite o k h _ => some (o, .stripeWt k.toNat h.toNat)
  | .coldCellarWrite o size _ => some (o, if size then .coldSize else .coldBase)
  | .dirSelWrite o _ => some (o, .dirSel)
  | .cbLoad o .. | .cbRetire o .. | .forceFree o .. => some (o, .cbCmd)
  | .ftLoad o .. | .ftSwap o .. => some (o, .ftCmd)
  | .go o c | .resume o c | .clr o c | .abort o c => some (o, .chan c 6)
  | .mvHownWrite o _ => some (o, .mvHown)
  | .ringDbWrite o r _ => some (o, .ringDb r.toNat)
  | .ringEnable o r _ | .ringDisable o r _ => some (o, .ringCfg r.toNat)
  | .p2pEnable o k _ => some (o, .p2pCtl k.toNat)
  | .irqMsgMaskWrite o v _ => some (o, .irqMsgCtl v.toNat)
  | .fltStatClear o _ => some (o, .fltStat)
  | .rcCounterRead o off | .registerWrite o off _ => (regAt (off.toNat / 8 * 8)).map fun r => (o, r)
  | .pop o n => some (o, .chAflagCtl n.toNat)
  | .planCtlClr o => some (o, .planCtl)
  | .prmEnable o k _ => some (o, .prmCfg k.toNat)
  | .take o k | .prmHoldRel o k => some (o, .prmHold k.toNat)
  | .commit o .. | .stepAbort o _ | .nonfin o _ => some (o, .stepCmd)
  | .restore o _ => some (o, .snapCmd)
  | .keySlotWrite o k w _ => some (o, .keySlot k.toNat w.toNat)
  | .zero o _ => some (o, .keyCtl)
  | .erase o _ | .program o _ | .nvRead o _ => some (o, .nvCmd)
  | .clSelWrite o _ => some (o, .clSel)
  | .wrst o | .leave o | .aononly o => some (o, .sysCtl)
  | .off o n | .hold o n _ => some (o, .chPwrCtl n.toNat)
  | .modeRequest o _ => some (o, .modeCtl)
  | _ => none

/-- The origin of an access to control space that waits in a bridge. -/
def cmdOrigin (c : Instr) : Option Origin :=
  match c with
  | .cpRequest _ => some .cp
  | .hbpTargetRequest _ => some .hbp
  | _ => (cmdAccess c).map (·.1.origin)

/-- The register that a waiting access is for; a request on HBP_TREQ names one in window 0 (R279). -/
def cmdReg (c : Instr) : Option Reg :=
  match c with
  | .cpRequest r | .hbpTargetRequest r => if r.addr.toNat < 2 ^ 26 then regAt (r.addr.toNat / 8 * 8) else none
  | _ => (cmdAccess c).map (·.2)

/-- Whether a request ends the aon-only state: one on CP_TREQ, HBP_TREQ, PP_TREQ or CCP_INB (R360). -/
def callsBlock (c : Instr) : Bool :=
  match c with
  | .mpResponse .. | .creditReturn .. => false
  | _ => match cmdPort c with | some (.fp _, _) => false | _ => true

/-- A request while fclk is stopped waits in its bridge; in the aon-only state it starts the PLL (R353, R359, R360). -/
def holdStopped (c : Instr) (s : State) : State :=
  let s := hold c s
  if s.sys.aons && callsBlock c then { s with sys := { s.sys with aonWaking := true } } else s

/-- A request at a port: dropped in reset and before READY (R365, R366), held while fclk is stopped (R359, R360). -/
def hostGate (c : Instr) (f : State → Out) (s : State) : Out :=
  if !accepts s then .next s else if !fclkOn s then done (holdStopped c s) else f s

/-- Records a write that was not refused in the change log, if the register is a configuration register (R349). -/
def logIf (o : Org) (r : Reg) (s s' : State) : State :=
  if (Reg.desc r).log && s'.logTotal == s.logTotal then logWrite o (Reg.off r) 0 (regVal s r) (regVal s' r) s' else s'

/-- TAG_FAULT of a port, with header bits [127:64] (R375). -/
def tagFault (p : PortId) (hdr : Nat) (s : State) : State := raise 0x13 (portRec p) (BitVec.ofNat 64 hdr) s

/-- An event inside the block: nothing happens in it unless its units act. -/
def inner (f : State → State) (s : State) : Out := if live s then done (f s) else .next s

/-! ## Contexts -/

/-- A word of a context. -/
def Ctx.word (c : Ctx) (i : Nat) : Word := nth c.w i
/-- KIND: 0 IN, 1 OUT, 2 LOCAL, 3 MEM (R240). -/
def Ctx.kind (c : Ctx) : Nat := fld (c.word 0) 63 62
/-- ETYPE. -/
def Ctx.etype (c : Ctx) : Nat := fld (c.word 0) 61 58
/-- RANK. -/
def Ctx.rank (c : Ctx) : Nat := fld (c.word 0) 57 51
/-- SWT. -/
def Ctx.swt (c : Ctx) : Nat := fld (c.word 0) 50 47
/-- SEM. -/
def Ctx.sem (c : Ctx) : Nat := fld (c.word 0) 46 35
/-- FWD. -/
def Ctx.fwd (c : Ctx) : Bool := bit (c.word 0) 34
/-- BSIG. -/
def Ctx.bsig (c : Ctx) : Bool := bit (c.word 0) 33
/-- CHMASK. -/
def Ctx.chmask (c : Ctx) : BitVec 32 := (c.word 0).setWidth 32
/-- IDX. -/
def Ctx.idx (c : Ctx) : Bool := bit (c.word 1) 58
/-- IDXADDR. -/
def Ctx.idxAddr (c : Ctx) : Nat := fld (c.word 1) 57 40
/-- ELEMS. -/
def Ctx.elems (c : Ctx) : Nat := fld (c.word 1) 39 0
/-- HALF0 and HALF1. -/
def Ctx.half (c : Ctx) (h : Nat) : Nat := (c.word (2 + h % 2)).toNat
/-- SIG0 and SIG1. -/
def Ctx.sig (c : Ctx) (h : Nat) : Nat := (c.word (4 + h % 2)).toNat
/-- HT. -/
def Ctx.ht (c : Ctx) : Nat := fld (c.word 6) 47 32
/-- TILE. -/
def Ctx.tile (c : Ctx) : Nat := fld (c.word 6) 31 0
/-- DEADLINE. -/
def Ctx.deadline (c : Ctx) : Nat := fld (c.word 7) 47 0

/-- The steps of a chain up to END: code and argument (R181). -/
def stepsOf (w : Word) : List (Nat × Nat) :=
  ((List.range 4).map fun i => (fld w (16 * i + 15) (16 * i + 11), fld w (16 * i + 10) (16 * i))).takeWhile fun x => x.1 != 0

/-- Whether a step is NORM with STATOUT (R184). -/
def statStep (c : Nat × Nat) : Bool := c.1 == 3 && c.2 / 512 % 2 == 1

/-- The context that takes the row results of a stream-out op's chain as issued (R184). -/
def statCtx (o : ChurnOp) : Option Nat := if (stepsOf o.issued).any statStep then some (o.desc.ctx + 1) else none

/-- The contexts a churn op uses (R184, R187, R263). -/
def opCtxs (o : ChurnOp) : List Nat :=
  match o.kind with
  | .sout => o.desc.ctx :: (statCtx o).toList
  | .reenc => []
  | .cop =>
    match fld o.ga 7 0 with
    | 1 => [o.desc.ctx]
    | 2 => [o.desc.ctx, fld o.ga 21 8, fld o.ga 39 26]
    | 3 => [o.desc.ctx, fld o.ga 21 8]
    | _ => []
  | _ => [o.desc.ctx]

/-- Tasks in flight that use context `i`. -/
def tasksOn (s : State) (i : Nat) : List Task := s.tasks.filter fun t => (opCtxs t.op).contains i

/-- CTX_STAT.OPS: churn ops in flight on a context. -/
def ctxOps (s : State) (i : Nat) : Nat := (tasksOn s i).foldl (fun a t => a + popcount t.left.toNat 32) 0

/-- STRM_FLT's word (R263). -/
def strmWord (ctx churn kind info : Nat) : Word := pack [(50, ctx), (45, churn), (40, kind), (0, info)]

/-- Whether a task is one that R263 aborts: a stream-out or cop op. -/
def abortable (t : Task) : Bool := t.op.kind == .sout || t.op.kind == .cop

/-- The abort of tasks on context `i` (R263): the cause is latched if the context was OPEN, ASTAT bit 0 is
set, every part is told to stop, and the context becomes ABORTED or, for a CLOSE, CLOSED. -/
def abortTasks (ids : List Nat) (i churn kind info : Nat) (s : State) : State :=
  let x := ctxAt s i
  let s := if x.st == .opened then { s with strmFlt := strmWord i churn kind info } else s
  let s := setAstat 0 s
  let s := setCtx s i { x with st := if kind = 1 ∨ x.st = .closed then .closed else .aborted }
  if ids.isEmpty then s
  else
    { s with
      tasks := s.tasks.map fun t => if ids.contains t.id then { t with aborted := true } else t
      churns := s.churns.map fun c =>
        { c with run := c.run.map fun o => if ids.contains o.op.id then { o with aborted := true } else o } }

/-- The abort of every task on context `i` (R124, R241, R263). -/
def abortCtx (i churn kind info : Nat) (s : State) : State :=
  abortTasks (((tasksOn s i).filter abortable).map (·.id)) i churn kind info s

/-- Whether the task of an op has been aborted. -/
def taskAborted (s : State) (id : Nat) : Bool := s.tasks.any fun t => t.id == id && t.aborted

/-! ## Semaphore pairs -/

/-- The OPEN OUT context that takes the EMPTY counts of pair `p` (R249). -/
def takerOf (s : State) (p : Nat) : Option (Nat × Ctx) :=
  s.ctxs.find? fun x => x.2.st == .opened && x.2.kind == 1 && x.2.sem == p

/-- The context of a pair takes the whole of EMPTY: into REL, or forwarded over CCP (R249, R255). The count is
taken within the command that added it (log entry 16). -/
def takeEmpty (p : Nat) (s : State) : State :=
  match takerOf s p with
  | none => s
  | some (i, x) =>
    let n := (pairAt s p).empty
    if n = 0 then s
    else
      let s := setPair s p { pairAt s p with empty := 0 }
      if x.fwd then send (ccpMsg 4 [pack [(32, i), (16, n.toNat), (12, 1), (0, p)]]) none s
      else setCtx s i { x with rel := x.rel + n.setWidth 40 }

/-- A counter of a pair. -/
def semSide (x : Pair) (empty : Bool) : BitVec 16 := if empty then x.empty else x.full

/-- A pair with one counter replaced. -/
def semPut (x : Pair) (empty : Bool) (v : BitVec 16) : Pair := if empty then { x with empty := v } else { x with full := v }

/-- Whether `n` can be added to a counter of pair `p` (R254). -/
def semFits (s : State) (p : Nat) (empty : Bool) (n : Nat) : Bool :=
  decide ((semSide (pairAt s p) empty).toNat + n ≤ 65535)

/-- An addition to a counter of pair `p`, or SEM_OVERFLOW naming it (R254); `what` is the fault's record. -/
def semAdd (p : Nat) (empty : Bool) (n : Nat) (what : Word) (s : State) : State :=
  if semFits s p empty n then
    let x := pairAt s p
    takeEmpty p (setPair s p (semPut x empty (semSide x empty + BitVec.ofNat 16 n)))
  else raise 0x15 what (pack [(0, p), (12, b1 empty)]) s

/-! ## Tickets -/

/-- The lowest free ticket slot (R102). -/
def freeSlot (s : State) : Option Nat := (List.range 256).find? fun i => !(ticketAt s i).taken

/-- Whether CCP_OUT holds the credits of one message (R86, R99). -/
def ccpReady (s : State) : Bool :=
  linkOk s .ccp && canDrive s (ccpMsg 1 []) none && !(s.txq.any fun x => x.m.port == .ccp)

/-- Adds to a plan counter unless the counters are frozen (R129). -/
def plan (f : Plan → Plan) (s : State) : State := if bit (rd s .planCtl) 1 then s else { s with plan := f s.plan }

/-- The payload of a TICKET (R119). -/
def ticketWords (e : Nat) (recipe layer : Nat) (t : Desc) (src : Bool) (slot seq : Nat) (deadline : Word) (s : State) : List Word :=
  [pack [(50, t.chain), (34, recipe), (17, e), (16, b1 src), (8, seq), (0, slot)],
   pack [(26, layer), (14, t.sem), (0, t.ctx)], t.w2,
   pack [(32, s.step.step.toNat % 2 ^ 32), (0, t.need)], deadline, s.sys.aon.setWidth 64]

/-- Sends a TICKET in slot `i` (R102, R119, R124, R126). -/
def sendTicket (i e recipe layer : Nat) (t : Desc) (src : Bool) (deadline : Word) (s : State) : State :=
  let k := ticketAt s i
  let q := k.seq + 1
  let inst := if s.step.open_ then some s.step.inst else none
  let s := setTicket s i { taken := true, seq := q, ctx := BitVec.ofNat 14 t.ctx, inst := inst, aon := s.sys.aon }
  plan (fun p => { p with tktIssued := satAdd p.tktIssued 1 })
    (send (ccpMsg 1 (ticketWords e recipe layer t src i q.toNat deadline s)) none s)

/-- The failure of a ticket: ASTAT bit 2 and the count (R123). -/
def ticketFail (s : State) : State := plan (fun p => { p with tktFail := satAdd p.tktFail 1 }) (setAstat 2 s)

/-- A TICKET_DONE, R122 to R126; `hdr` is the header's bits [127:64]. -/
def ticketDoneMsg (hdr : Nat) (w : Word) (s : State) : State :=
  let i := fld w 7 0
  let k := ticketAt s i
  if !k.taken || k.seq != BitVec.ofNat 8 (fld w 15 8) then tagFault .ccp hdr s
  else
    let lat := (s.sys.aon - k.aon).toNat
    let s := setTicket s i { k with taken := false, ctx := 0, inst := none, aon := 0 }
    let s := plan (fun p => { p with latSum := satAdd p.latSum lat,
                                     latMax := if p.latMax.toNat < lat then BitVec.ofNat 32 (min lat (2 ^ 32 - 1)) else p.latMax }) s
    match fld w 19 16 with
    | 0 => s
    | 2 =>
      if s.step.open_ && k.inst == some s.step.inst then
        raise 0xC (recWord none 0xF6 0 11) (BitVec.ofNat 64 (fld w 15 0)) s
      else ticketFail s
    | _ =>
      let s := setAstat 0 (ticketFail s)
      if (ctxAt s k.ctx.toNat).st == .opened then abortCtx k.ctx.toNat 0 5 (fld w 15 0) s else s

/-! ## Messages on CCP_INB -/

/-- The non-posted requests of partners at port `p` that have entered and not been answered: they keep their header credits (R36). -/
def unanswered (s : State) (p : PortId) : Nat :=
  (s.wins.filter fun w => w.port == p && !w.posted).length
  + if p = .pp then s.units.foldl (fun a u => a + u.wrs.length) 0
      + s.wins.foldl (fun a w => a + (match w.fin with | .unit wrs => wrs.length | _ => 0)) 0 else 0

/-- Whether a request of `d` data credits arrives at port `p` with credit: the credits advertised, less those that
requests in the bridges and unanswered ones hold and those a stall keeps back (R36, R38, R40, R78). -/
def hasRx (s : State) (p : PortId) (d : Nat) : Bool :=
  let h := s.bridges.filterMap cmdPort |>.filter fun x => x.1 == p
  let x := portAt s p
  decide (h.length + unanswered s p + 1 ≤ x.rxHdr) && decide (h.foldl (fun a y => a + y.2) 0 + x.owed + d ≤ x.rxDat)

/-! ## The order of requests at a port -/

/-- The port, sender and class of a request that waits in a bridge. A row that stands for an access of the host has no class of its own
and counts as SEQ (DESIGN CHOICE, log entry 5). -/
def heldReq : Instr → Option (PortId × BitVec 17 × BitVec 2)
  | .cpRequest _ => some (.cp, 0, 2)
  | .hbpTargetRequest r => some (.hbp, 0, r.oc)
  | .ppTargetRequest r => some (.pp, r.chip, r.oc)
  | .sealRecord r => some (.pp, r.chip, r.oc)
  | .sealWindowRd r => some (.pp, r.chip, r.oc)
  | .sig p r => some (p, if p = .pp then r.chip else 0, r.oc)
  | .inboundWrite n r => some (.fp n, 0, r.oc)
  | .ticketDone m | .layerStart m | .semSignal m => some (.ccp, 0, m.h.extractLsb' 38 2)
  | .ccpMessageDrop hdr => some (.ccp, 0, hdr.extractLsb' 102 2)
  | c =>
    match cmdAccess c with
    | some (o, _) => (match o.origin with | .cp => some (.cp, 0, 2) | .hbp => some (.hbp, 0, 2) | _ => none)
    | none => none

/-- Whether a request of class `oc` must wait for one of class `e` before it from the same sender at the same port (R42). -/
def mustWait (oc e : BitVec 2) : Bool := oc == 2 || e == 2 || (oc == 1 && e == 1)

/-- The requests from a sender that wait in port `p`'s bridge, by class. -/
def waitingOc (s : State) (p : PortId) (chip : BitVec 17) : List (BitVec 2) :=
  (s.bridges.filterMap heldReq |>.filter fun x => x.1 == p && x.2.1 == chip).map (·.2.2)

/-- The requests from a sender at a port's memory accesses, by class. -/
def windowOc (s : State) (p : PortId) (chip : BitVec 17) : List (BitVec 2) :=
  (s.wins.filter fun w => w.port == p && w.chip == chip).map (·.oc)

/-- The requests from a sender at a port that are not performed yet, by class: those that wait, those at the memory ports, and the
writes of sealed units that are not resolved (R338). -/
def earlier (s : State) (p : PortId) (chip : BitVec 17) : List (BitVec 2) :=
  windowOc s p chip ++ (if p = .pp then (s.units.filter fun u => u.chip == chip).flatMap (·.ocs) else []) ++ waitingOc s p chip

/-- Whether a request waits for an earlier one (R42). -/
def ordered (s : State) (p : PortId) (chip : BitVec 17) (oc : BitVec 2) : Bool := (earlier s p chip).any (mustWait oc)

/-- A message that reaches CCP_INB: dropped in reset and with the link down (R48), dropped with TAG_FAULT without credit (R40) or
when its header `h`, bits [127:64], has another opcode than MSG or the reserved class (R28, R33, R42). -/
def ccpIn (h : Word) (f : State → State) (c : Instr) (s : State) : Out :=
  hostGate c (fun s =>
    if !linkOk s .ccp then .next s
    else done (
      if !hasRx s .ccp 1 then tagFault .ccp h.toNat s
      else if ordered s .ccp 0 (h.extractLsb' 38 2) then hold c s
      else if fld h 63 56 != 5 || fld h 39 38 == 3 then tagFault .ccp h.toNat s
      else f s)) s

/-- TICKET_DONE, R123. -/
def execTicketDone (m : CcpMsg) (s : State) : Out := ccpIn m.h (ticketDoneMsg m.h.toNat m.w) (.ticketDone m) s

/-- LAYER_START, R259. -/
def execLayerStart (m : CcpMsg) (s : State) : Out :=
  ccpIn m.h (fun s => { s with layerStart := some s.sys.now, paceOn := true, paceCyc := 0, paceLayer := m.w.setWidth 16 })
    (.layerStart m) s

/-- SEM_SIGNAL, R255. -/
def execSemSignal (m : CcpMsg) (s : State) : Out :=
  ccpIn m.h (semAdd (fld m.w 11 0) (bit m.w 12) (fld m.w 31 16) (portRec .ccp)) (.semSignal m) s

/-- CCP_MESSAGE_DROP, R29: a message of a kind that is reserved or Out only. -/
def execCcpMessageDrop (hdr : BitVec 128) (s : State) : Out :=
  ccpIn (hdr.extractLsb' 64 64) (fun s =>
    if [2, 3, 4].contains (fld hdr 7 0) then s else raise 0x14 (portRec .ccp) (hdr.extractLsb' 0 64) s)
    (.ccpMessageDrop hdr) s

/-! ## Context commands -/

/-- The bytes of churn `n`'s share of an IN stream of type `f` (R245). -/
def inShareBytes (seq : List Nat) (n f rank elems : Nat) : Nat :=
  shareBytes seq n (frames elems) (frameBytes f rank frameElems)
    (frameBytes f rank (frameLen elems (frames elems - 1)))

/-- The check of OPEN on context `i` (R241); that IDXADDR is a multiple of 4 (R240) is checked with it (DEDUCED, log 25). -/
def ctxCheck (s : State) (i : Nat) (c : Ctx) : Bool :=
  let seq := dealSeq s c.chmask c.swt
  let inn := c.kind == 0
  let out := c.kind == 1
  let z (w : Nat) : Bool := c.word w == 0
  !bit (c.word 0) 32 && fld (c.word 1) 63 59 == 0 && fld (c.word 6) 63 48 == 0 && fld (c.word 7) 63 48 == 0
  && !fmtReserved c.etype && c.elems != 0 && !seq.isEmpty
  && (inn || c.etype == 0) && ((inn && c.etype == 0xB) || c.rank == 0)
  && (out || (!c.fwd && !c.idx && z 3 && z 4 && z 5 && c.ht == 0 && c.tile == 0))
  && (if c.idx then c.idxAddr % 4 == 0 else c.idxAddr == 0) && (out || c.kind == 3 || z 2)
  && (match c.kind with | 3 => c.bsig | 2 => !c.bsig | _ => true)
  && (!out || (c.tile % 64 == 0 && (c.ht != 0) == (c.tile != 0)))
  && (!c.idx || (out && c.tile != 0))
  && (!out || !(s.ctxs.any fun x => x.1 != i && x.2.st != .closed && x.2.kind == 1 && x.2.sem == c.sem))
  && (!inn || (List.range 32).all fun n => decide (inShareBytes seq n c.etype c.rank c.elems < 2 ^ 32))

/-- CTX_SEL.IDX. -/
def ctxSel (s : State) : Nat := fld (rd s .ctxSel) 13 0

/-- CTX_STAT's OPS and ERR after a command. -/
def ctxStatSet (err : Nat) (s : State) : State :=
  { s with ctxStat := pack [(48, min (ctxOps s (ctxSel s)) 65535), (8, err)] }

/-- OPEN, R241. -/
def ctxOpenOp (o : Org) (v : Word) (s : State) : State :=
  let i := ctxSel s
  let c : Ctx := { w := (List.range 8).map fun k => rd s (.ctxData k), st := .opened }
  if !(tasksOn s i).isEmpty then refuseWrite o (Reg.off .ctxCmd) 0 v (ctxStatSet 2 s)
  else if !ctxCheck s i c then refuseWrite o (Reg.off .ctxCmd) 0 v (ctxStatSet 1 s)
  else ctxStatSet 0 (setPair (setCtx s i c) c.sem {})

/-- CLOSE, R241. -/
def ctxCloseOp (s : State) : State :=
  let i := ctxSel s
  let s := ctxStatSet 0 s
  if (tasksOn s i).any abortable then abortCtx i 0 1 0 s else setCtx s i { ctxAt s i with st := .closed }

/-- READ, R241. -/
def ctxReadOp (s : State) : State :=
  let x := ctxAt s (ctxSel s)
  let s := ctxStatSet 0 s
  let s := (List.range 8).foldl (fun s k => wr s (.ctxData k) (x.word k)) s
  { s with ctxProg := x.pos, ctxRel := x.rel }

/-- A write to CTX_CMD (R241). -/
def ctxCmd (o : Org) (v : Word) (s : State) : State :=
  match fld v 1 0 with
  | 1 => ctxOpenOp o v s
  | 2 => ctxCloseOp s
  | 3 => ctxReadOp s
  | _ => s

/-- CTX_OPEN, R241. -/
def execCtxOpen (o : Org) (s : State) : Out := hostGate (.ctxOpen o) (fun s => done (logIf o .ctxCmd s (ctxOpenOp o 1 s))) s

/-- CTX_CLOSE, R241. -/
def execCtxClose (o : Org) (s : State) : Out := hostGate (.ctxClose o) (fun s => done (logIf o .ctxCmd s (ctxCloseOp s))) s

/-- CTX_READ, R241. -/
def execCtxRead (o : Org) (s : State) : Out := hostGate (.ctxRead o) (fun s => done (logIf o .ctxCmd s (ctxReadOp s))) s

/-- Whether stripe weight set `k` is in use (R244). -/
def setInUse (s : State) (k : Nat) : Bool :=
  (s.dir.any fun x => x.2.st != .free && x.2.swt.toNat == k) || (s.ctxs.any fun x => x.2.st == .opened && x.2.swt == k)

end Sys2Proof.Machine
end

