-- ==== Sys2Proof/Machine/ChurnCore.lean ====
section
/-! DEFINITION. What the units of a churn share: faults and counters of an op, the flag log (R195, R196), memory
accesses through MPn, the block-map cache (R60, R61), and the storing of a block (R54 to R57, R142). -/

namespace Sys2Proof.Machine

/-! ## Ops and their reports -/

/-- The op code of CH_AFLAG_HEAD.OP (R196). -/
def opCode (o : ChurnOp) : Nat :=
  match o.kind with
  | .sin => 0xF0
  | .sout => 0xF1
  | .reenc => 0xF2
  | .upd => 0xF3
  | .cop => fld o.ga 7 0

/-- The directory entry an op concerns. -/
def opEntry (o : ChurnOp) : Option Nat :=
  match o.kind with
  | .sin | .sout | .reenc => some o.desc.entry
  | _ => none

/-- FLT_REC's word for a fault of an op in churn `n`. -/
def churnRec (n : Nat) (o : ChurnOp) : Word := recWord (opEntry o) (opCode o) n (if o.kind = .upd then 13 else 2)

/-- A fault of an op in churn `n`. -/
def opFault (c n : Nat) (o : ChurnOp) (info : Word) (s : State) : State := churnFault c (churnRec n o) info s

/-- The running op `id` of churn `n`. -/
def runAt (s : State) (n id : Nat) : Option RunOp := (churnAt s n).run.find? fun o => o.op.id == id

/-- Changes the running op `id` of churn `n`. -/
def modRun (n id : Nat) (f : RunOp → RunOp) (s : State) : State :=
  modChurn n (fun c => { c with run := lmod (fun o => o.op.id == id) f c.run }) s

/-- Adds to a field of CH_CODEC_EVT: 3 RETIRED, 2 BAD, 1 ZERO, 0 RAWFB. -/
def codecCount (n f k : Nat) (s : State) : State :=
  modChurn n (fun c => { c with codecEvt := satFld c.codecEvt (16 * f + 15) (16 * f) k }) s

/-- Adds the events of a tile to CH_FMT_EVT (R171). -/
def fmtCount (n : Nat) (x : FCnt) (s : State) : State :=
  if x.nonfin + x.sat + x.uflow = 0 then s
  else modChurn n (fun c =>
    { c with fmtEvt := satFld (satFld (satFld c.fmtEvt 63 48 x.nonfin) 47 32 x.sat) 31 16 x.uflow }) s

/-- Adds to a field of CH_ARITH_EVT: 3 CANCEL, 2 OVF, 1 NONFIN, 0 CHAIN. -/
def arithCount (n f k : Nat) (s : State) : State :=
  modChurn n (fun c => { c with arithEvt := satFld c.arithEvt (16 * f + 15) (16 * f) k }) s

/-- A unit finishes a tile (R196): with a flag set, a record is appended, or lost on a full log, and the first
non-finite one of the op raises NONFINITE. Units: 0 format, 1 low-rank, 2 whey, 3 update. -/
def tileFlags (n : Nat) (o : RunOp) (unit stream tile : Nat) (ovf nonfin : Bool) (s : State) : State :=
  if !ovf && !nonfin then s
  else
    let r : FlagRec := { stream := BitVec.ofNat 24 stream, op := BitVec.ofNat 8 (opCode o.op), unit := BitVec.ofNat 3 unit,
                         tile := BitVec.ofNat 40 tile, ovf := ovf, nonfin := nonfin }
    let s := modChurn n (fun c =>
      if c.flags.length < 64 then { c with flags := c.flags ++ [r] } else { c with lost := satAdd c.lost 1 }) s
    let seen := match runAt s n o.op.id with | some x => x.nonfin | none => o.nonfin
    if nonfin && !seen then
      opFault 0xC n o.op (pack [(40, stream), (0, tile)]) (modRun n o.op.id (fun x => { x with nonfin := true }) s)
    else s

/-- The flags of a format-unit tile. -/
def fmtTile (n : Nat) (o : RunOp) (unit stream tile : Nat) (x : FCnt) (s : State) : State :=
  tileFlags n o unit stream tile (x.sat != 0) x.nf (fmtCount n x s)

/-- Changes a churn's plan counters unless they are frozen (R129). -/
def planChurn (n : Nat) (f : Churn → Churn) (s : State) : State := if bit (rd s .planCtl) 1 then s else modChurn n f s

/-- The address of a draw of an op: key and step as they were when it started (R160, R191). -/
def drawAt (o : RunOp) (stream tile : Nat) : DrawAddr :=
  { key := o.key, step := o.step.toNat, stream := stream, tile := tile }

/-! ## Memory accesses -/

/-- Cuts `len` bytes from address `a` at boundaries of `k`: addresses and lengths. The first argument bounds them. -/
def cutAt (k : Nat) : Nat → Nat → Nat → List (Nat × Nat)
  | 0, _, _ => []
  | f + 1, a, len =>
    if len = 0 then []
    else
      let m := min len (k - a % k)
      (a, m) :: cutAt k f (a + m) (len - m)

/-- The requests a range takes at boundaries of `k` (R31). -/
def cuts (k a len : Nat) : List (Nat × Nat) := cutAt k (len / k + 2) a len

/-- Reads `len` bytes from stack-local address `a` of churn `n`, within 512 B. -/
def mpRead (n a len : Nat) (o : Owner) (s : State) : State := send (rdMsg (mpP n) (dpaOf (ilv s) n a) len 0) (some o) s

/-- Writes bytes from stack-local address `a` of churn `n`, in requests of at most 512 B. -/
def mpWrite (n a : Nat) (data : List Byte) (o : Owner) (s : State) : State :=
  (cuts 512 a data.length).foldl (fun s x =>
    send (wrMsg (mpP n) (dpaOf (ilv s) n x.1) ((data.drop (x.1 - a)).take x.2) 0) (some o) s) s

/-- Whether a request of some owner is waiting, in flight, or failed and not yet delivered. -/
def owed (s : State) (p : Owner → Bool) : Bool :=
  s.inflight.any (fun f => p f.owner) || s.dead.any (fun f => p f.owner)
  || s.txq.any fun x => match x.owner with | some o => p o | none => false

/-! ## The block-map cache -/

/-- The line with key `k`. -/
def lineAt (c : Churn) (k : Nat) : Option MapLine := c.lines.find? fun l => l.key == k

/-- Writes a line back (R61). -/
def lineBack (n : Nat) (l : MapLine) (s : State) : State := mpWrite n (64 * l.key) (wordsBytes l.w) (.mapWb (BitVec.ofNat 5 n) l.key l.e) s

/-- The set a line falls in. -/
def lineSet (l : MapLine) : Nat := Config.mapSet l.key % 2048

/-- Removes the least recently used line of the set of line `x`, if the set holds more than 8 (R60). -/
def evictFor (n : Nat) (x : MapLine) (s : State) : State :=
  let c := churnAt s n
  if c.lines.length ≤ 8 then s
  else
    let m := c.lines.filter fun l => lineSet l == lineSet x
    if m.length ≤ 8 then s
    else
      match m.getLast? with
      | none => s
      | some v =>
        let s := setChurn s n { c with lines := c.lines.filter fun l => l.key != v.key }
        if v.dirty then lineBack n v s else s

/-- Puts a line into the cache as the most recently used. -/
def linePut (n : Nat) (x : MapLine) (s : State) : State :=
  evictFor n x (modChurn n (fun c => { c with lines := x :: c.lines.filter fun l => l.key != x.key }) s)

/-- The key of the line that holds map word `i` of an entry. -/
def mapKey (s : State) (e i : Nat) : Nat := mapLocal s (entAt s e) i / 64

/-- Map word `i` of entry `e`, if its line is in churn `n`'s cache. -/
def mapWord (s : State) (n e i : Nat) : Option Word := (lineAt (churnAt s n) (mapKey s e i)).map fun l => nth l.w (i % 8)

/-- Marks the line of map word `i` as the most recently used. -/
def mapTouch (n e i : Nat) (s : State) : State :=
  match lineAt (churnAt s n) (mapKey s e i) with
  | none => s
  | some l => modChurn n (fun c => { c with lines := l :: c.lines.filter fun x => x.key != l.key }) s

/-- Asks for the 512 B that hold map word `i`, for op `id`, unless it has asked already (R60). -/
def mapFill (n id e i : Nat) (s : State) : State :=
  let g := mapKey s e i / 8 * 8
  let b := BitVec.ofNat 5 n
  if owed s fun o => o == .mapRd b id g e then s else mpRead n (64 * g) 512 (.mapRd b id g e) s

/-- Writes map word `i` of entry `e` in churn `n` (R60): into its line, or, on a miss, once the 512 B that hold the line have been read.
Words beyond the map are not written (log entry 17). -/
def mapStore (n e i : Nat) (w : Word) (s : State) : State :=
  if i ≥ (entAt s e).mapLen.toNat then s
  else
    let k := mapKey s e i
    match lineAt (churnAt s n) k with
    | some l => linePut n { l with w := l.w.set (i % 8) w, e := e, dirty := true } s
    | none =>
      let g := k / 8 * 8
      let o : Owner := .mapFw (BitVec.ofNat 5 n) g e
      let s := modChurn n (fun c => { c with mapPend := c.mapPend ++ [(e, i, w)] }) s
      if owed s fun x => x == o then s else mpRead n (64 * g) 512 o s

/-- The words that wait for the fill of the lines from `g` on, and churn `n` without them. -/
def mapWaiting (n g : Nat) (s : State) : List (Nat × Nat × Word) × State :=
  let (mine, rest) := (churnAt s n).mapPend.partition fun w => mapKey s w.1 w.2.1 / 8 * 8 == g
  (mine, modChurn n (fun c => { c with mapPend := rest }) s)

/-- The lines of a map read enter the cache, but for those already there, and the words that waited for them are written. -/
def mapFilled (n g e : Nat) (data : List Byte) (s : State) : State :=
  let s := (List.range 8).foldl (fun s k =>
    if (lineAt (churnAt s n) (g + k)).isSome then s
    else linePut n { key := g + k, e := e, w := bytesWords 8 (data.drop (64 * k)), dirty := false } s) s
  let (ws, s) := mapWaiting n g s
  ws.foldl (fun s w => mapStore n w.1 w.2.1 w.2.2 s) s

/-- A fill for map words to be written failed: MEM_BUS_ERR, the lines are not filled, and the words go to memory themselves (R146,
R391; log entry 73). -/
def mapFillLost (n g e addr : Nat) (s : State) : State :=
  let (ws, s) := mapWaiting n g s
  let s := churnFault 1 (recWord (some e) 0xFF n 2) (BitVec.ofNat 64 addr) s
  ws.foldl (fun s w =>
    mpWrite n (mapLocal s (entAt s w.1) w.2.1) (wordBytes w.2.2) (.mapWb (BitVec.ofNat 5 n) (mapKey s w.1 w.2.1) w.1) s) s

/-- Whether map words of entry `e` wait for their lines in churn `n`. -/
def mapPending (s : State) (n e : Nat) : Bool := (churnAt s n).mapPend.any fun w => w.1 == e

/-- Writes back every dirty line of entry `e` in churn `n`; the lines stay, clean (R61). -/
def mapFlush (n e : Nat) (s : State) : State :=
  let d := (churnAt s n).lines.filter fun l => l.dirty && l.e == e
  if d.isEmpty then s
  else
    let s := modChurn n (fun c => { c with lines := c.lines.map fun l => if l.e == e then { l with dirty := false } else l }) s
    d.foldl (fun s l => lineBack n l s) s

/-- Whether churn `n` has map words or lines of entry `e` to write back, or write-backs not yet answered. -/
def mapOwed (s : State) (n e : Nat) : Bool :=
  mapPending s n e || ((churnAt s n).lines.any fun l => l.dirty && l.e == e)
  || owed s fun o => match o with | .mapWb m _ f => m.toNat == n && f == e | _ => false

/-! ## Blocks -/

/-- The length in bytes of block `i` of a churn's share: full but for the tensor's last block (R131). -/
def blockLen (bytes i : Nat) : Nat := min 4096 (bytes - 4096 * i)

/-- The stored bytes of churn `n`'s share of a tensor of `elems` elements in format `f` (R155). -/
def storedShare (seq : List Nat) (n f rank elems : Nat) : Nat :=
  shareBytes seq n (frames elems) (fmtK f rank * 4096) (storedLen f (frameLen elems (frames elems - 1)) rank)

/-- The deal sequence of an op. -/
def opSeq (s : State) (o : ChurnOp) : List Nat := dealSeq s o.mask o.swt.toNat

/-- The generation an op codes with: its number and image (R143, R149). -/
def opGen (s : State) (n : Nat) (o : ChurnOp) : Option (BitVec 4 × List Word) :=
  o.gen.map fun g => (g, (vget {} (churnAt s n).gens g.toNat).img)

/-- Whether a block-map entry is damaged (R58, R133). -/
def mapBad (m : Word) : Bool := mapDamaged m || fld m 51 48 != 0 || fld m 5 0 != 0

/-- The sectors of a block. -/
def mapSect (m : Word) : Nat :=
  match fld m 63 62 with
  | 0 => 64
  | 1 => fld m 57 52 + 1
  | _ => 0

/-- The stack-local address of a block's first sector. -/
def mapLoc (m : Word) : Nat := localOf (m.toNat % 2 ^ 48)

/-- Counts a coded block (R129, and CH_CODEC_EVT). -/
def countBlock (n : Nat) (o : ChurnOp) (raw : Nat) (c : Coded) (s : State) : State :=
  let s := if o.kind = .sin then plan (fun p => { p with sectIn := satAdd p.sectIn c.sect }) s else s
  let s := if o.lsl then planChurn n (fun x => { x with lslRaw := satAdd x.lslRaw raw, lslSect := satAdd x.lslSect c.sect }) s else s
  if c.code = 2 then codecCount n 1 1 s else if o.lsl && c.code = 0 then codecCount n 0 1 s else s

/-- Stores block `i` of op `o` in churn `n`: coded (R132, R142), placed (R55) and written, and its map word formed.
None while the allocation has to wait. -/
def putBlock (n : Nat) (o : ChurnOp) (f i : Nat) (raw : List Byte) (s : State) : Option (Word × State) :=
  let e := o.desc.entry
  let c := encBlock f o.lsl (opGen s n o) raw
  if c.code = 2 then some (mapEntry c 0, countBlock n o raw.length c s)
  else
    match placeSectors n e c.sect s with
    | none => none
    | some (a, s1) =>
      let own := (churnAt s1 n).chunks.length != (churnAt s n).chunks.length
      let s1 := modChurn n (fun x => { x with sects := mset 0 x.sects e (mget 0 x.sects e + c.sect) }) s1
      let s1 := modEnt e (fun x => { x with sectors := x.sectors + BitVec.ofNat 40 c.sect }) s1
      let s1 := countBlock n o raw.length c s1
      let m := mapEntry c (dpaOf (ilv s1) n a)
      let s1 := mpWrite n a (padTo (64 * c.sect) c.data) (.store (BitVec.ofNat 5 n) o.id e i m) s1
      some (m, if own then ladderEval s1 else s1)

/-- Whether the writes of op `id` in churn `n` have all returned. -/
def storesOwed (s : State) (n id : Nat) : Bool :=
  owed s fun o => match o with | .store m i _ _ _ => m.toNat == n && i == id | _ => false

/-! ## Block reads -/

/-- Records a block failure of op `id` in CH_CODEC_ERR: kind 1 RIND_BAD, 2 CB_RETIRED, 3 MEM_BUS_ERR (R146). -/
def codecErr (n id reason kind dpa : Nat) (s : State) : State :=
  modRun n id (fun x => { x with fault := true })
    (modChurn n (fun c => { c with codecErr := pack [(60, reason), (58, kind), (6, dpa % 2 ^ 48 / 64)] }) s)

/-- A block of entry `e` that fails under R146: the fault, the record and the count. -/
def blockBad (n : Nat) (o : ChurnOp) (reason dpa : Nat) (s : State) : State :=
  opFault 6 n o (pack [(60, reason), (6, dpa % 2 ^ 48 / 64)]) (codecCount n 2 1 (codecErr n o.id reason 1 dpa s))

/-- A block whose generation is gone (R144). -/
def blockRetired (n : Nat) (o : ChurnOp) (dpa : Nat) (s : State) : State :=
  opFault 5 n o (pack [(6, dpa % 2 ^ 48 / 64)]) (codecCount n 3 1 (codecErr n o.id 0 2 dpa s))

/-- A block whose read failed (R146): MEM_BUS_ERR with the failing address. -/
def blockLost (n : Nat) (o : ChurnOp) (dpa addr : Nat) (s : State) : State :=
  opFault 1 n o (BitVec.ofNat 64 addr) (codecCount n 2 1 (codecErr n o.id 0 3 dpa s))

/-- The expander's work on a block whose sectors have arrived: `e` raw bytes, and whether it was sound. -/
def expandBlock (n : Nat) (o : ChurnOp) (cur : Nat) (m : Word) (e : Nat) (st : List Byte) (s : State) : List Byte × Bool × State :=
  let dpa := if fld m 63 62 = 2 then 0 else m.toNat % 2 ^ 48
  if mapBad m then (zeros e, false, blockBad n o 0xA dpa s)
  else
    let g := fld m 61 58
    let c := churnAt s n
    let t := mget Tag.none c.tags o.desc.entry
    let x := vget {} c.gens g
    let img := if t == .retired || x.st == .free then none else some x.img
    match expand m e cur img (t == .gen (BitVec.ofNat 4 g)) st with
    | .ok b => (b, true, s)
    | .retired => (zeros e, false, blockRetired n o dpa s)
    | .rind r => (zeros e, false, blockBad n o r dpa s)

end Sys2Proof.Machine
end

