-- ==== Sys2Proof/Machine/StreamIn.lean ====
section
/-! DEFINITION. Stream-in ops: their start (R149, R156), the accepted bytes on their way into blocks (R115, R155,
R246, R247), and their completion (R61, R98, R247). -/

namespace Sys2Proof.Machine

/-- The contexts an op takes data from (R187, R242). -/
def opIns (o : ChurnOp) : List Nat :=
  match o.kind with
  | .sin | .upd => [o.desc.ctx]
  | .cop => if fld o.ga 7 0 = 2 then [o.desc.ctx, fld o.ga 21 8] else [o.desc.ctx]
  | _ => []

/-- The bytes of the stage buffer that an op has for each stream it takes: 512 KiB, shared by two where it takes two (R261; log
entry 41). -/
def opCap (o : ChurnOp) : Nat := 524288 / max 1 (opIns o).length

/-- Whether an op may start: no earlier running op of the churn takes data from the same context (R242). -/
def firstOn (c : Churn) (o : RunOp) : Bool :=
  match c.run.find? fun x => (opIns x.op).any (opIns o.op).contains with
  | some x => x.op.id == o.op.id
  | none => true

/-- The output context of a cop op, where it has one. -/
def copOut (o : ChurnOp) : Option Nat :=
  match fld o.ga 7 0 with
  | 2 => some (fld o.ga 39 26)
  | 3 => some (fld o.ga 21 8)
  | _ => none

/-- The contexts an op delivers to (R184, R187). -/
def opOuts (o : ChurnOp) : List Nat :=
  match o.kind with
  | .sout => o.desc.ctx :: (statCtx o).toList
  | .cop => (copOut o).toList
  | _ => []

/-- Whether an op may deliver in churn `n`: no op issued before it still has a part there for a context of its own (R242).
A deferred fetch counts from its issue (log entry 24). -/
def firstOut (s : State) (n : Nat) (o : ChurnOp) : Bool :=
  s.tasks.all fun t => !(decide (t.id < o.id) && t.left.getLsbD n && (opOuts t.op).any (opOuts o).contains)

/-- The blocks of a stream-in op's share, and its stored bytes. -/
def sinStored (s : State) (n : Nat) (o : ChurnOp) : Nat := storedShare (opSeq s o) n o.fmt.toNat o.rank o.elems

/-- The bytes of an op's share of the IN stream on its context (R245). -/
def inShare (s : State) (n : Nat) (o : ChurnOp) : Nat :=
  let x := ctxAt s o.desc.ctx
  inShareBytes (opSeq s o) n x.etype x.rank o.elems

/-- Whether the pair is one R156 performs. -/
def sinLegal (x : Ctx) (o : ChurnOp) : Bool :=
  (sinPair x.etype o.fmt.toNat).isSome
  && (o.fmt != 0xB || (decide (1 ≤ x.rank) && decide (x.rank ≤ 64) && o.elems % 16384 == 0))

/-- STREAM_IN_OP's effect on a dispatched op: the tag, the checks, the ZERO marks of a refused pair. -/
def sinStart (n : Nat) (o : RunOp) (s : State) : State :=
  let e := o.op.desc.entry
  let x := ctxAt s o.op.desc.ctx
  let bad := !sinLegal x o.op
  let s := modRun n o.op.id (fun r => { r with started := true, refused := bad, step := s.step.step }) s
  let s := match o.op.gen with
    | some g => modChurn n (setTag e (.gen g)) s
    | none => if o.op.noGen then opFault 5 n o.op 0 s else s
  if bad then
    let s := opFault 0x14 n o.op 0xF0 (modChurn n (fun c => { c with fmtEvt := satFld c.fmtEvt 15 0 1 }) s)
    (List.range (cdiv (sinStored s n o.op) 4096)).foldl (fun s i => codecCount n 1 1 (mapStore n e i (pack [(62, 2)]) s)) s
  else s

/-- Converts the frame at the head of the op's input, once all of it is there (R156, R160). -/
def sinFrame (n : Nat) (o : RunOp) (s : State) : Option State :=
  let x := ctxAt s o.op.desc.ctx
  let f := frameAt (opSeq s o.op) n o.cq
  let k := frameLen o.op.elems f
  let b := frameBytes x.etype x.rank k
  if k = 0 ∨ o.inbuf.length < b then none
  else
    let v := (decElems x.etype k (o.inbuf.take b)).1
    let (y, cnt) := encFrame o.op.fmt.toNat (drawAt o o.op.desc.ctx f) 0 v
    let s := modRun n o.op.id (fun r => { r with cq := r.cq + 1, inbuf := r.inbuf.drop b, sto := r.sto ++ y }) s
    some (fmtTile n o 0 o.op.desc.ctx f cnt s)

/-- Stores the next block of the op's share (R54 to R57). -/
def sinBlock (n : Nat) (o : RunOp) (s : State) : Option State :=
  let b := blockLen (sinStored s n o.op) o.blk
  if b = 0 ∨ o.sto.length < b then none
  else
    match putBlock n o.op o.op.fmt.toNat o.blk (o.sto.take b) s with
    | none => none
    | some (m, s) =>
      let s := mapStore n o.op.desc.entry o.blk m s
      some (modRun n o.op.id (fun r => { r with blk := r.blk + 1, sto := r.sto.drop b }) s)

/-- One quantum of a stream-in op; none when it can do nothing now. -/
def sinGo (n : Nat) (o : RunOp) (s : State) : Option State :=
  let e := o.op.desc.entry
  let x := ctxAt s o.op.desc.ctx
  if o.refused || (entAt s e).st != .filling then
    if o.inbuf.isEmpty && o.sto.isEmpty then
      if o.acc = inShare s n o.op && !o.flushed && !mapPending s n e then
        some (modRun n o.op.id (fun r => { r with flushed := true }) (mapFlush n e (closeChunk n e s)))
      else none
    else some (modRun n o.op.id (fun r => { r with inbuf := [], sto := [] }) s)
  else if !o.inbuf.isEmpty && sinPair x.etype o.op.fmt.toNat == some false then
    some (modRun n o.op.id (fun r => { r with sto := r.sto ++ r.inbuf, inbuf := [] }) s)
  else
    match sinBlock n o s with
    | some s => some s
    | none =>
      match sinFrame n o s with
      | some s => some s
      | none =>
        if 4096 * o.blk ≥ sinStored s n o.op ∧ !o.flushed ∧ o.acc = inShare s n o.op ∧ !mapPending s n e then
          some (modRun n o.op.id (fun r => { r with flushed := true }) (mapFlush n e (closeChunk n e s)))
        else none

/-- Whether a stream-in op has done all its work in churn `n` (R61, R247). -/
def sinDone (s : State) (n : Nat) (o : RunOp) : Bool :=
  o.started && o.flushed && !storesOwed s n o.op.id && !mapOwed s n o.op.desc.entry

/-! ## Completion -/

/-- Takes an op out of churn `n`: its op reference ends (R149). -/
def opLeave (n : Nat) (o : RunOp) (s : State) : State :=
  modChurn n (fun c =>
    let c := { c with run := c.run.filter fun x => x.op.id != o.op.id }
    match o.op.gen with | some g => refGen g false c | none => c) s

/-- The hub learns that churn `n` finished its part of an op: the task, and whether it was the last part. -/
def partDone (n id : Nat) (s : State) : Option Task × State :=
  match s.tasks.find? fun t => t.id == id with
  | none => (none, s)
  | some t =>
    let l := t.left &&& ~~~ BitVec.ofNat 32 (2 ^ n)
    if l = 0 then (some t, { s with tasks := s.tasks.filter fun x => x.id != id })
    else (none, { s with tasks := lmod (fun x => x.id == id) (fun x => { x with left := l }) s.tasks })

/-- The last churn finished a stream-in op: the entry is RESIDENT, REFS falls, and the pair is signalled (R64, R63,
R247). -/
def sinEnd (n : Nat) (o : ChurnOp) (s : State) : State :=
  let e := o.desc.entry
  let s := if (entAt s e).st == .filling then modEnt e (fun x => { x with st := .resident }) s else s
  let s := dropRef e s
  let x := ctxAt s o.desc.ctx
  if x.bsig && x.st == .opened then semAdd x.sem false 1 (churnRec n o) s else s

/-- STREAM_IN_OP_COMPLETE's effect. -/
def sinComplete (n : Nat) (o : RunOp) (s : State) : State :=
  match partDone n o.op.id (opLeave n o s) with
  | (some t, s) => sinEnd n t.op s
  | (none, s) => s

end Sys2Proof.Machine
end

