-- ==== Sys2Proof/Machine/Chain.lean ====
section
/-! DEFINITION. Churn op chains: their steps and legality (R181, R182), the delivered form (R183, R248), the lane
work of each step (R184, R185), and row statistics shared over the mesh (R176 to R180). -/

namespace Sys2Proof.Machine

/-- The END step of a chain, where it has one, has ARG 0 (R181, R182). -/
def endOk (w : Word) : Bool :=
  match (List.range 4).find? fun i => fld w (16 * i + 15) (16 * i + 11) == 0 with
  | some i => fld w (16 * i + 10) (16 * i) == 0
  | none => true

/-- Whether a step is a whey step. -/
def isWhey (c : Nat × Nat) : Bool := c.1 ≥ 2

/-- The target of WIDEN, when the chain begins with it: 0 BF16, 2 binary32. -/
def widenTo (st : List (Nat × Nat)) : Option Nat :=
  match st with
  | (1, a) :: _ => some (if a % 2 = 1 then 2 else 0)
  | _ => none

/-- The format a chain delivers for stored format `f` (R183). -/
def outFmt (st : List (Nat × Nat)) (f : Nat) : Nat := (widenTo st).getD f

/-- The delivered bytes of `k` elements (R248). -/
def outBytes (st : List (Nat × Nat)) (f rank k : Nat) : Nat :=
  match widenTo st with
  | some t => k * fmtW t
  | none => if st.isEmpty then frameBytes f rank k else k * fmtW f

/-- The delivered bytes of a row of `row` elements; none where the element has no width in bytes of its own: a row that splits an MX
block, and LRK without WIDEN (R252). -/
def rowBytes (st : List (Nat × Nat)) (f row : Nat) : Option Nat :=
  match widenTo st with
  | some t => some (row * fmtW t)
  | none =>
    if isMx f then (if row % 32 = 0 then some (row / 32 * mxS f) else none)
    else if f = 0xB then none else some (row * fmtW f)

/-- The reserved bits of a step's argument, and codes that are reserved (R181, R197). -/
def stepForm (c : Nat × Nat) : Bool :=
  match c.1 with
  | 1 => c.2 < 2
  | 2 => c.2 < 256 && (funcTab c.2).isSome
  | 3 => c.2 < 1024
  | 4 => c.2 < 1024
  | 5 => c.2 < 8
  | _ => false

/-- HD of a ROPE step. -/
def ropeHd (a : Nat) : Nat := 2 * (a / 8 % 128 + 1)

/-- A vector slot of churn `n`. -/
def slotAt (s : State) (n i : Nat) : VSlot := vget {} (churnAt s n).vslots i

/-- Whether the bank of table `t` that an op uses holds an image. -/
def bankImg (s : State) (n : Nat) (o : RunOp) (t : Nat) : Option (List Word) :=
  let b := vget {} (churnAt s n).banks t
  if o.banks.getLsbD t then b.b else b.a

/-- Whether a step finds what it reads: slots of the right length, and tables (R182, R207). -/
def stepReady (s : State) (n : Nat) (o : RunOp) (row : Nat) (c : Nat × Nat) : Bool :=
  let slot (i : Nat) : Nat := (slotAt s n i).v.length
  let a := c.2
  match c.1 with
  | 2 => match funcTab a with | some t => (bankImg s n o t).isSome | none => false
  | 3 => row != 0 && (a / 8 % 2 = 0 || slot (a % 8) == row) && (a / 128 % 2 = 0 || slot (a / 16 % 8) == row)
  | 4 =>
    row != 0 && row % ropeHd a == 0 && (slotAt s n (a % 8)).f32 && slot (a % 8) == ropeHd a / 2
    && (bankImg s n o 7).isSome
  | 5 => row != 0 && slot (a % 8) == row
  | _ => true

/-- Whether the chain an op copied is legal for it (R182). -/
def chainLegal (s : State) (n : Nat) (o : RunOp) : Bool :=
  let st := stepsOf o.steps
  (st.drop 1).all (fun c => c.1 != 1) && st.all stepForm && endOk o.steps
  && (isFloat o.op.fmt.toNat || (widenTo st).isSome || !st.any isWhey)
  && st.all (stepReady s n o o.op.desc.row)

/-- Whether an op with this chain evaluates functions (R207). -/
def chainUsesF (st : List (Nat × Nat)) : Bool := st.any fun c => c.1 == 2 || c.1 == 4

/-! ## Lane work -/

/-- A lane value with the marks it has gathered: overflow, non-finite. -/
abbrev LaneV := BitVec 32 × Bool × Bool

/-- Applies a lane operation. -/
def laneOp (x : LaneV) (f : BitVec 32 → Ln) : LaneV :=
  let y := f x.1
  (y.v, x.2.1 || y.ovf, x.2.2 || y.nf)

/-- NORM's second pass on an element (R184). -/
def normLane (rms : Bool) (m rstd gam bet : BitVec 32) (x : BitVec 32) : Ln :=
  (if rms then Ln.pure x else subL x m).bind fun t => (mulL t rstd).bind fun t => fmaL t gam bet

/-- ROPE on a pair of elements (R185): the position's number, θ, and the evaluation of sine and cosine. -/
def ropePair (sc : Nat → BitVec 32 → Ln) (pos : Nat) (theta a b : BitVec 32) : Ln × Ln :=
  let phi := (intL false pos).bind fun p => mulL p theta
  let co := phi.bind (sc 0xC)
  let si := phi.bind (sc 0xB)
  (co.bind fun c => si.bind fun s => (mulL b s).bind fun t => fmaL a c (negF t),
   co.bind fun c => si.bind fun s => (mulL b c).bind fun t => fmaL a s t)

/-- ROPE over the elements from number `g` on (R185). row + POS_BASE is taken modulo 2³² (DESIGN CHOICE, log entry 99). -/
def ropeLanes (sc : Nat → BitVec 32 → Ln) (row hd base : Nat) (theta : List (BitVec 32)) : Nat → List LaneV → List LaneV
  | g, x :: y :: r =>
    let th := theta.getD (g % row % hd / 2) 0
    let p := ropePair sc ((g / row + base) % 2 ^ 32) th x.1 y.1
    (p.1.v, x.2.1 || p.1.ovf, x.2.2 || p.1.nf) :: (p.2.v, y.2.1 || p.2.ovf, y.2.2 || p.2.nf)
      :: ropeLanes sc row hd base theta (g + 2) r
  | _, l => l

/-! ## Rows and their segments -/

/-- Elements of row `r` of a tensor. -/
def rowLen (row elems r : Nat) : Nat := min row (elems - r * row)

/-- The frames that a row touches: the first, and how many (R176). -/
def rowFrames (row elems r : Nat) : Nat × Nat :=
  let a := r * row / frameElems
  (a, (r * row + rowLen row elems r - 1) / frameElems - a + 1)

/-- The churn that holds a frame. -/
def holder (s : State) (o : ChurnOp) (f : Nat) : Nat := stripeChurn (opSeq s o) f

/-- The rows of `k` elements from element `g0` on: row, first place and length. -/
def rowsIn (row g0 k : Nat) : List (Nat × Nat × Nat) :=
  if k = 0 then []
  else (List.range ((g0 + k - 1) / row - g0 / row + 1)).map fun i =>
    let r := g0 / row + i
    let a := max (r * row) g0
    (r, a - g0, min ((r + 1) * row) (g0 + k) - a)

/-! ## Where output goes -/

/-- Writes bytes at a fabric address on FPn_OUT: posted, class RLX (R43). -/
def fpWrite (n a : Nat) (data : List Byte) (s : State) : State :=
  (cuts 4096 a data.length).foldl (fun s x =>
    send (wrpMsg (fpP n) x.1 ((data.drop (x.1 - a)).take x.2) 0) none s) s

/-- Writes output to a context that has no tiles: from byte `off` of the whole output for OUT (R250), from byte `pos` of the churn's
share for MEM (R251), and at the end of the churn's stage buffer for LOCAL. -/
def sinkPut (n : Nat) (o : RunOp) (ctx off pos : Nat) (data : List Byte) (s : State) : State :=
  let x := ctxAt s ctx
  match x.kind with
  | 1 => fpWrite n (x.half 0 + off) data s
  | 3 => mpWrite n (x.half 0 + pos) data (.memOut (BitVec.ofNat 5 n) o.op.id) s
  | 2 => modChurn n (fun c => { c with loc := mset [] c.loc ctx (mget [] c.loc ctx ++ data) }) s
  | _ => s

/-- A signal of churn `n` for pair or address: SIG in class SEQ to SIG0 or SIG1, or a count to FULL (R250, R251). -/
def signal (n : Nat) (o : RunOp) (ctx h count : Nat) (s : State) : State :=
  let x := ctxAt s ctx
  if x.bsig then semAdd x.sem false count (churnRec n o.op) s else send (sigMsg (fpP n) (x.sig h) count) none s

/-- The stream of an op's narrowing writes and row reports (R190). -/
def outStream (o : ChurnOp) : Nat := if o.kind = .cop then 0x140000 + o.desc.ctx else 0x100000 + o.desc.entry

/-- What a step or op that forms row statistics works with: RMS, EPS, and whether a context receives the results
(R184, R187). -/
structure RowJob where
  rms : Bool
  eps : BitVec 32
  out : Bool

/-- The results of a row whose partial sums are all at its home (R176, R178, R180): m32, rstd, and the reports. `tile` is the tile the
row counts for; `key` orders its results among those the home delivers, 4 × row + step (R184). -/
def finishRow (n : Nat) (o : RunOp) (j : RowJob) (tile key row : Nat) (s1 s2 : Fp) (s : State) :
    (BitVec 32 × BitVec 32) × Ln × State :=
  let len := rowLen o.op.desc.row o.op.elems row
  let x := rowStats s1 s2 len j.rms j.eps
  let l : Ln := { v := x.rstd.v, ovf := x.m.ovf || x.rstd.ovf, nf := x.m.nf || x.rstd.nf }
  let s :=
    if x.cancel then
      let seen := match runAt s n o.op.id with | some y => y.cancel | none => false
      let s := arithCount n 3 1 s
      if seen then s
      else opFault 0xD n o.op (pack [(40, outStream o.op), (0, tile)])
        (modRun n o.op.id (fun y => { y with cancel := true }) s)
    else s
  let d := toBytes 4 x.m.v.toNat ++ toBytes 4 x.rstd.v.toNat
  let s := if j.out then modRun n o.op.id (fun y => { y with rowHeld := mset [] y.rowHeld key d }) s else s
  ((x.m.v, x.rstd.v), l, s)

/-- Adds marks to those of a tile of a unit (R195). The record of the tile names the last stream that marked it (log entry 80). -/
def markAdd (unit stream tile : Nat) (ovf nf : Bool) :
    List (Nat × Nat × Nat × Bool × Bool) → List (Nat × Nat × Nat × Bool × Bool)
  | [] => [(unit, stream, tile, ovf, nf)]
  | x :: r =>
    if x.1 = unit ∧ x.2.2.1 = tile then (unit, stream, tile, ovf || x.2.2.2.1, nf || x.2.2.2.2) :: r
    else x :: markAdd unit stream tile ovf nf r

/-- Sets the flags of a tile in a unit; they stay set until the unit finishes the tile (R195). -/
def markTile (n id unit stream tile : Nat) (ovf nf : Bool) (s : State) : State :=
  if !ovf && !nf then s else modRun n id (fun r => { r with marks := markAdd unit stream tile ovf nf r.marks }) s

/-- Counts the events of part of a format-unit tile and sets its flags. -/
def fmtMark (n id unit stream tile : Nat) (x : FCnt) (s : State) : State :=
  markTile n id unit stream tile (x.sat != 0) x.nf (fmtCount n x s)

/-- Counts the marks of finished lanes (CH_ARITH_EVT) and sets the flags of their tile in the whey array (R195). -/
def wheyTile (n : Nat) (o : RunOp) (stream tile : Nat) (v : List LaneV) (extra : Bool × Bool) (s : State) : State :=
  let a := (v.filter fun x => x.2.1).length
  let b := (v.filter fun x => x.2.2).length
  let s := if a = 0 then s else arithCount n 2 a s
  let s := if b = 0 then s else arithCount n 1 b s
  markTile n o.op.id 2 stream tile (a != 0 || extra.1) (b != 0 || extra.2) s

/-- The first finished tile with flags set, as `ended` tells it, leaves its record (R196). -/
def marksGo (n : Nat) (o : RunOp) (ended : Nat → Nat → Bool) (s : State) : Option State :=
  match o.marks.find? fun m => ended m.1 m.2.2.1 with
  | none => none
  | some (u, st, t, a, b) =>
    some (tileFlags n o u st t a b (modRun n o.op.id (fun r => { r with marks := r.marks.filter fun m => !(m.1 == u && m.2.2.1 == t) }) s))

/-- The passes of a whey step through the array (R181). -/
def wheyPasses (c : Nat × Nat) : Nat := if c.1 = 3 ∨ c.1 = 4 then 2 else if isWhey c then 1 else 0

/-- Counts the cycles the whey array takes for `k` element passes (CH_PLAN_WHEY, R129, R183): 256 of them in a cycle when the
output is binary32, 512 otherwise. -/
def wheyCount (n k : Nat) (out32 : Bool) (s : State) : State :=
  planChurn n (fun c => { c with whey := satAdd c.whey (cdiv k (if out32 then 256 else 512)) }) s

/-- The partial sums of a row at its home, in segment order; none while some have not come. -/
def gathered (s : State) (id step row k : Nat) : Option (List (Fp × Fp)) :=
  (List.range k).mapM fun i =>
    (s.flits.find? fun f => f.id == id && f.step == step && f.row == row && f.seg == i && f.dst.isNone && f.arrived).map
      fun f => (w80val f.s1, w80val f.s2)

/-- The churns that hold a segment of a row. -/
def rowHolders (s : State) (o : ChurnOp) (f k : Nat) : List Nat :=
  ((List.range k).map fun i => holder s o (f + i)).eraseDups

/-- The result of a row, if churn `n` has it. -/
def rowResult (s : State) (n id step row : Nat) : Option (BitVec 32 × BitVec 32) :=
  (s.flits.find? fun f => f.id == id && f.step == step && f.row == row && f.dst == some (BitVec.ofNat 5 n) && f.arrived).map
    fun f => (f.m, f.rstd)

/-- Once every partial of a row is at its home `n`, the home finishes it and sends the result to every churn that holds a
segment (R177). -/
def homeRow (n : Nat) (o : RunOp) (j : RowJob) (step row : Nat) (s : State) : State :=
  let (f, k) := rowFrames o.op.desc.row o.op.elems row
  match gathered s o.op.id step row k with
  | none => s
  | some [] => s
  | some (p :: ps) =>
    let s1 := ps.foldl (fun a x => wadd a x.1) p.1
    let s2 := ps.foldl (fun a x => wadd a x.2) p.2
    let (x, l, s) := finishRow n o j f (4 * row + step) row s1 s2 s
    let s := if l.ovf || l.nf then wheyTile n o (outStream o.op) f [(l.v, l.ovf, l.nf)] (false, false) s else s
    let keep := s.flits.filter fun y => !(y.id == o.op.id && y.step == step && y.row == row)
    let res := (if o.op.kind = .cop then [] else rowHolders s o.op f k).map fun c =>
      ({ id := o.op.id, step := step, row := row, seg := 0, home := BitVec.ofNat 5 n, s1 := 0, s2 := 0,
         dst := some (BitVec.ofNat 5 c), m := x.1, rstd := x.2, arrived := c == n } : RowFlit)
    { s with flits := keep ++ res }

/-- Sends the partial sums of a segment to the row's home; one that is its own home has it at once (R177). -/
def sendPartial (n : Nat) (o : RunOp) (step row seg : Nat) (home : Nat) (p : Fp × Fp) (s : State) : State :=
  { s with flits := s.flits ++ [{ id := o.op.id, step := step, row := row, seg := seg, home := BitVec.ofNat 5 home,
                                  s1 := w80bits p.1, s2 := w80bits p.2, arrived := home == n }] }

end Sys2Proof.Machine
end

