-- ==== Sys2Proof/Machine/StreamOut.lean ====
section
/-! DEFINITION. Stream-out ops: reading and expanding blocks (R144, R146, R261), conversion and widening (R117, R157),
the chain (R181 to R185), and delivery in tiles or to a plain sink (R248 to R252, R256). -/

namespace Sys2Proof.Machine

/-! ## What an op delivers -/

/-- The steps an op performs: none when its chain was refused (R182). -/
def runSteps (o : RunOp) : List (Nat × Nat) := if o.refused then [] else stepsOf o.steps

/-- Whether an op is index-driven (R252). -/
def isIdx (s : State) (o : ChurnOp) : Bool := o.kind == .sout && (ctxAt s o.desc.ctx).idx

/-- Row number `r` of an index list (R252). -/
def idxRow (s : State) (x : Ctx) (r : Nat) : Nat := ofBytes (dmBytes s (x.idxAddr + 4 * r) 4)

/-- The row that delivered row `r` of an op is: as the hub read it when it routed row `r`, else as the list names it now (R252). -/
def routedRow (s : State) (o : ChurnOp) (r : Nat) : Nat :=
  match (s.tasks.find? fun t => t.id == o.id).bind fun t => t.rows[r]? with
  | some i => i
  | none => idxRow s (ctxAt s o.desc.ctx) r

/-- The hub routes row `r` of an op, unless it has: it reads the list once for all churns (R252; log entry 94). -/
def routeRow (o : ChurnOp) (r : Nat) (s : State) : State :=
  let i := routedRow s o r
  { s with tasks := lmod (fun t => t.id == o.id && t.rows.length == r) (fun t => { t with rows := t.rows ++ [i] }) s.tasks }

/-- Rows an index-driven op delivers. -/
def idxRows (x : Ctx) (o : ChurnOp) : Nat := x.elems / o.desc.row

/-- Local frames of churn `n`. -/
def opFrames (s : State) (n : Nat) (o : ChurnOp) : Nat := framesOf (opSeq s o) n (frames o.elems)

/-- The elements of a unit: a row, or what its frame holds. -/
def unitLen (s : State) (o : ChurnOp) (u : FUnit) : Nat :=
  if isIdx s o then o.desc.row else frameLen o.elems (u.g0 / frameElems)

/-- The bytes of `k` elements in the delivered form of the chain as it was when the op was issued (R182, R248). -/
def placeBytes (o : RunOp) (k : Nat) : Nat := outBytes (stepsOf o.op.issued) o.op.fmt.toNat o.op.rank k

/-- The bytes a unit is given, and their offset in the op's delivered stream (R182, R248, R252). -/
def unitPlace (s : State) (o : RunOp) (u : FUnit) : Nat × Nat :=
  if isIdx s o.op then
    let w := (rowBytes (stepsOf o.op.issued) o.op.fmt.toNat o.op.desc.row).getD 0
    (w, u.u * w)
  else (placeBytes o (unitLen s o.op u), u.g0 / frameElems * placeBytes o frameElems)

/-- The frame of the output that a unit belongs to (R195). -/
def outTile (s : State) (o : ChurnOp) (u : FUnit) : Nat :=
  if isIdx s o then u.u * o.desc.row / frameElems else u.g0 / frameElems

/-- Changes unit `u` of an op. -/
def modUnit (n id u : Nat) (f : FUnit → FUnit) (s : State) : State :=
  modRun n id (fun r => { r with units := lmod (fun x => x.u == u) f r.units }) s

/-! ## Reading -/

/-- The blocks of a frame of `k` elements in the stored format, and their bytes. -/
def frameStored (o : ChurnOp) (k : Nat) : Nat := storedLen o.cur.toNat k o.rank

/-- Asks for the next block of unit `u`: its map word, then its sectors (R60, R144). A block beyond MAP_LEN, which a context that declares
more elements than its entry has, is delivered as zeros with RIND_BAD, reason 0xA and DPA 0 (DESIGN CHOICE, log entry 17). -/
def askBlock (n : Nat) (o : RunOp) (u : FUnit) (s : State) : Option State :=
  let e := o.op.desc.entry
  let k := frameLen o.op.elems (frameAt (opSeq s o.op) n u.q)
  let len := blockLen (frameStored o.op k) u.i
  let i := u.q * fmtK o.op.cur.toNat o.op.rank + u.i
  let put (m : Word) (d : Option (List Byte)) (s : State) : State :=
    modUnit n o.op.id u.u (fun x => { x with i := x.i + 1, bytes := x.bytes + 64 * mapSect m,
                                             blks := x.blks ++ [{ i := u.i, map := m, data := d }] }) s
  if len = 0 then none
  else if i ≥ (entAt s e).mapLen.toNat then some (put 0 (some (zeros len)) (blockBad n o.op 0xA 0 s))
  else
    match mapWord s n e i with
    | none =>
      if o.badLines.contains (mapKey s e i / 8 * 8) then
        some (put 0 (some (zeros len)) (blockLost n o.op 0 (dpaOf (ilv s) n (mapLocal s (entAt s e) i)) s))
      else if owed s (fun x => x == .mapRd (BitVec.ofNat 5 n) o.op.id (mapKey s e i / 8 * 8) e) then none
      else some (mapFill n o.op.id e i s)
    | some m =>
      let s := mapTouch n e i s
      if mapBad m || mapSect m = 0 then
        let (b, _, s) := expandBlock n o.op o.op.cur.toNat m len [] s
        some (put (if mapBad m then 0xC000000000000000 else m) (some b) s)
      else
        let c := cuts 512 (mapLoc m) (64 * mapSect m)
        let s := put m none s
        let s := modUnit n o.op.id u.u (fun x => { x with
          parts := x.parts ++ c.map fun y => { blk := u.i, off := y.1 - mapLoc m, len := y.2 } }) s
        let s := if o.op.kind = .sout then plan (fun p => { p with sectFetch := satAdd p.sectFetch (mapSect m) }) s else s
        some (c.foldl (fun s y => mpRead n y.1 y.2 (.blockRd (BitVec.ofNat 5 n) o.op.id u.u u.i (y.1 - mapLoc m)) s) s)

/-- Restores the first block of a unit whose sectors have all arrived (R144, R146). -/
def restoreBlock (n : Nat) (o : RunOp) (u : FUnit) (s : State) : Option State :=
  match u.blks.find? fun b => b.data.isNone && u.parts.all fun p => p.blk != b.i || p.data.isSome || p.bad with
  | none => none
  | some b =>
    let k := frameLen o.op.elems (frameAt (opSeq s o.op) n u.q)
    let len := blockLen (frameStored o.op k) b.i
    let ps := u.parts.filter fun p => p.blk == b.i
    let dpa := b.map.toNat % 2 ^ 48
    let (d, s) :=
      if ps.any (·.bad) then (zeros len, codecCount n 2 1 (codecErr n o.op.id 0 3 dpa s))
      else
        let (d, _, s) := expandBlock n o.op o.op.cur.toNat b.map len (ps.flatMap fun p => p.data.getD []) s
        (d, s)
    some (modUnit n o.op.id u.u (fun x => { x with
      parts := x.parts.filter fun p => p.blk != b.i
      blks := lmod (fun y => y.i == b.i) (fun y => { y with data := some d }) x.blks }) s)

/-- The bytes of a unit's frame once every block is restored. -/
def unitBytes (s : State) (n : Nat) (o : RunOp) (u : FUnit) : Option (List Byte) :=
  let k := frameLen o.op.elems (frameAt (opSeq s o.op) n u.q)
  if u.blks.length < cdiv (frameStored o.op k) 4096 || u.blks.any (·.data.isNone) then none
  else some (u.blks.flatMap fun b => b.data.getD [])

/-! ## Conversion and the chain -/

/-- The elements of a unit's frame of `k` elements that the op converts: the first and how many. An index-driven op converts its row,
with the rest of the MX blocks that hold it (R252). -/
def unitPart (s : State) (o : ChurnOp) (u : FUnit) (k : Nat) : Nat × Nat :=
  if isIdx s o then
    let g := if isMx o.cur.toNat ∨ isMx o.fmt.toNat then 32 else 1
    let a := u.g0 % frameElems / g * g
    (a, min (cdiv (u.g0 % frameElems + o.desc.row - a) g * g) (k - a))
  else (0, k)

/-- The form in FMT of `m` elements from element `a` of frame `f`: converted from CUR_FMT where they differ (R117, R157). -/
def toFmt (n : Nat) (o : RunOp) (tile f a m : Nat) (b : List Byte) (s : State) : List Byte × State :=
  if o.op.cur = o.op.fmt then (b, s)
  else
    let st := 0x80000 + o.op.desc.entry
    let (v, nf) := decElems o.op.cur.toNat m b
    let (y, c) := encFrame o.op.fmt.toNat (drawAt o st f) a v
    (y, fmtMark n o.op.id 0 st tile { c with nf := c.nf || nf } s)

/-- A value in its output format, as bytes. -/
def outElem (t : Nat) (c : Nat) : List Byte := toBytes (fmtW t) c

/-- Turns a frame in FMT into lane values or, without lanes, into its delivered form (R157, R181 to R183). Widening draws at the
element's place in the entry (R160), the multiply-out of LRK at its place in the output (R194). -/
def openUnit (n : Nat) (o : RunOp) (u : FUnit) (b : List Byte) (s : State) : State :=
  let f := frameAt (opSeq s o.op) n u.q
  let idx := isIdx s o.op
  let fm := o.op.fmt.toNat
  let tile := outTile s o.op u
  let (a, k) := unitPart s o.op u (frameLen o.op.elems f)
  let (b, s) := toFmt n o tile f a k (if idx && fm != 0xB then formPart o.op.cur.toNat a k b else b) s
  let st := runSteps o
  let part {α : Type} (l : List α) : List α :=
    if idx then (l.drop (u.g0 % frameElems - a)).take o.op.desc.row else l
  let form (l : List Byte) : List Byte :=
    if !idx then l else if isMx fm then l.take (cdiv o.op.desc.row 32 * mxS fm)
    else (l.drop ((u.g0 % frameElems - a) * fmtW fm)).take (o.op.desc.row * fmtW fm)
  let put (out : List Byte) (s : State) : State := modUnit n o.op.id u.u (fun x => { x with stage := 2, out := out, blks := [] }) s
  match widenTo st with
  | none =>
    if !st.any isWhey then put (form b) s
    else
      let v := part ((decElems fm k b).1.map laneIn)
      modUnit n o.op.id u.u (fun x => { x with stage := 1, step := 0, vals := v, blks := [], fl := v.map fun _ => (false, false) }) s
  | some t =>
    let sm := 0xC0000 + o.op.desc.entry
    let db (e : Nat) : Nat :=
      if idx && fm == 0xB then drawBits (drawAt o sm tile) (u.u * o.op.desc.row % frameElems + (e - a)) else drawBits (drawAt o sm f) e
    let (v, c) := widen fm o.op.rank (t == 2) db a k b
    let v := part v
    let s := fmtMark n o.op.id (if fm = 0xB then 1 else 0) sm tile c s
    if !st.any isWhey then
      put (v.flatMap fun x => if t = 2 then toBytes 4 x.toNat else toBytes 2 (x.toNat / 65536)) s
    else
      modUnit n o.op.id u.u (fun x => { x with stage := 1, step := 1, vals := v, blks := [], fl := v.map fun _ => (false, false) }) s

/-- The lanes of a unit. -/
def unitLanes (u : FUnit) : List LaneV := u.vals.zip u.fl

/-- Puts lanes back, and moves to the next step. -/
def lanesDone (n id u : Nat) (v : List LaneV) (s : State) : State :=
  modUnit n id u (fun x => { x with vals := v.map (·.1), fl := v.map (·.2), step := x.step + 1, asked := false, stat := [] }) s

/-- The row job of a NORM step (R184). -/
def normJob (o : RunOp) (a : Nat) : RowJob :=
  { rms := a / 256 % 2 = 1, eps := o.param.setWidth 32, out := a / 512 % 2 = 1 }

/-- The first pass of NORM on a unit: the sums of every row segment; rows wholly in the unit are finished, the others go
to their homes (R176, R177). -/
def normSums (n : Nat) (o : RunOp) (u : FUnit) (step a : Nat) (s : State) : State :=
  let row := o.op.desc.row
  let out32 := outFmt (runSteps o) o.op.fmt.toNat == 2
  let j := normJob o a
  (rowsIn row u.g0 u.vals.length).foldl (fun s (r, p, l) =>
    let sums := segStats ((u.vals.drop p).take l) (rowLen row o.op.elems r) out32
    let (f, k) := rowFrames row o.op.elems r
    if k = 1 then
      let tile := outTile s o.op u
      let (x, ln, s) := finishRow n o j tile (4 * (if isIdx s o.op then u.u else r) + step) r sums.1 sums.2 s
      let s := if ln.ovf || ln.nf then wheyTile n o (outStream o.op) tile [(ln.v, ln.ovf, ln.nf)] (false, false) s else s
      modUnit n o.op.id u.u (fun y => { y with stat := y.stat ++ [(r, x.1, x.2)] }) s
    else
      let h := holder s o.op f
      let s := sendPartial n o step r (u.g0 / frameElems - f) h sums s
      if h = n then homeRow n o j step r s else s)
    (modUnit n o.op.id u.u (fun y => { y with asked := true }) s)

/-- The statistics of row `r`, if the unit has them. -/
def rowStat (s : State) (n : Nat) (o : RunOp) (u : FUnit) (step r : Nat) : Option (BitVec 32 × BitVec 32) :=
  match u.stat.find? fun x => x.1 == r with
  | some x => some x.2
  | none => rowResult s n o.op.id step r

/-- The second pass of NORM (R184), once every row of the unit has its statistics. -/
def normApply (n : Nat) (o : RunOp) (u : FUnit) (step a : Nat) (s : State) : Option State :=
  let row := o.op.desc.row
  match (rowsIn row u.g0 u.vals.length).mapM fun x => (rowStat s n o u step x.1).map fun y => (x, y) with
  | none => none
  | some rs =>
    let slot (on i c : Nat) (d : BitVec 32) : BitVec 32 := if on = 1 then (slotAt s n i).v.getD c d else d
    let v := rs.flatMap fun ((r, p, l), (m, rstd)) =>
      (((unitLanes u).drop p).take l).zipIdx.map fun (x, i) =>
        let c := u.g0 + p + i - r * row
        laneOp x (normLane (a / 256 % 2 = 1) m rstd (slot (a / 8 % 2) (a % 8) c one32) (slot (a / 128 % 2) (a / 16 % 8) c 0))
    some (lanesDone n o.op.id u.u v s)

/-- The evaluation an op uses (R207, R212). -/
def opSfu (s : State) (n : Nat) (o : RunOp) (fn : Nat) (x : BitVec 32) : Ln :=
  sfu o.compat fn (match funcTab fn with | some t => (bankImg s n o t).getD [] | none => []) x

/-- Whether the whey array of churn `n` dispatches work: lane group 15 is up (R356). -/
def lanesUp (s : State) (n : Nat) : Bool := (churnAt s n).lgup == 0xFFFF

/-- Whether a unit awaits statistics. -/
def awaits (u : FUnit) : Bool := u.stage == 1 && u.asked

/-- The bytes of a churn's stage buffer that hold row segments awaiting statistics and re-encodes (R261). -/
def heldBytes (c : Churn) : Nat :=
  c.run.foldl (fun a o =>
    o.units.foldl (fun a u => if awaits u || o.op.kind == .reenc then a + u.bytes else a) (if o.op.kind = .reenc then a + o.sto.length else a)) 0

/-- Whether an op holds row segments that await statistics: its chain has a NORM step (R177). -/
def holdsRows (o : RunOp) : Bool := o.op.kind == .sout && !o.aborted && (runSteps o).any fun c => c.1 == 3

/-- Whether op `id` finds room for `k` more bytes among the 768 KiB that hold row segments and re-encodes (R261). The oldest op with row
segments keeps 512 KiB of them from the later ones, so that its rows can always be finished (log entry 41). -/
def segRoom (s : State) (n id k : Nat) : Bool :=
  let c := churnAt s n
  let first := (c.run.find? holdsRows).map (·.op.id)
  let later := match c.run.find? fun o => o.op.id == id with | some o => holdsRows o && first != some id | none => false
  decide (heldBytes c + k ≤ 786432)
  && (!later || decide (heldBytes { c with run := c.run.filter fun o => first != some o.op.id } + k ≤ 262144))

/-- Whether a row of the unit lies in other frames too. -/
def splitRow (o : RunOp) (u : FUnit) : Bool :=
  (rowsIn o.op.desc.row u.g0 u.vals.length).any fun x => (rowFrames o.op.desc.row o.op.elems x.1).2 != 1

/-- One step of a unit's chain, or the narrowing write that ends it (R183, R194). The narrowing counts its events anew: an element that is
not finite counts at each conversion of the op (DEDUCED, log entry 27). ROPE's row in an index-driven op is the row's number in the
entry (DEDUCED, log entry 99). -/
def unitStep (n : Nat) (o : RunOp) (u : FUnit) (s : State) : Option State :=
  let row := o.op.desc.row
  match (runSteps o)[u.step]? with
  | some (3, a) =>
    if u.asked then normApply n o u u.step a s
    else if splitRow o u && !segRoom s n o.op.id u.bytes then none
    else some (normSums n o u u.step a s)
  | some (2, a) => some (lanesDone n o.op.id u.u ((unitLanes u).map fun x => laneOp x (opSfu s n o a)) s)
  | some (4, a) =>
    some (lanesDone n o.op.id u.u
      (ropeLanes (opSfu s n o) row (ropeHd a) (fld o.param 63 32) (slotAt s n (a % 8)).v u.g0 (unitLanes u)) s)
  | some (5, a) =>
    some (lanesDone n o.op.id u.u ((unitLanes u).zipIdx.map fun (x, i) =>
      laneOp x fun y => mulL y ((slotAt s n (a % 8)).v.getD ((u.g0 + i) % row) 0)) s)
  | _ =>
    let t := outFmt (runSteps o) o.op.fmt.toNat
    let g := if isIdx s o.op then u.u * row else u.g0
    let sm := outStream o.op
    let cs := u.vals.zipIdx.map fun (x, i) => narrow t x (if t = 2 then 0 else drawBits (drawAt o sm ((g + i) / frameElems)) ((g + i) % frameElems))
    let cnt := cs.foldl (fun a c => a.add (c.cnt)) ({} : FCnt)
    let s := wheyCount n (u.vals.length * ((runSteps o).foldl (fun a c => a + wheyPasses c) 0)) (t == 2) (fmtCount n cnt s)
    let s := wheyTile n o sm (outTile s o.op u) (unitLanes u) (cnt.sat != 0, cnt.nf) s
    some (modUnit n o.op.id u.u (fun x => { x with stage := 2, vals := [], fl := [], out := cs.flatMap fun c => outElem t c.c }) s)

/-! ## Units -/

/-- The stored bytes an op has read from its oldest byte not yet delivered on (R261; log entry 41). -/
def aheadBytes (o : RunOp) : Nat := o.units.foldl (fun a u => a + u.bytes) 0

/-- Whether every block of a unit has been asked for. -/
def allAsked (s : State) (n : Nat) (o : RunOp) (u : FUnit) : Bool :=
  u.stage != 0
  || decide (u.i ≥ cdiv (frameStored o.op (frameLen o.op.elems (frameAt (opSeq s o.op) n u.q))) 4096)

/-- One quantum on a unit; `ask`: every block before its own has been asked for, so that what is read ahead runs on from
the oldest byte not delivered (R261). -/
def unitGo (n : Nat) (o : RunOp) (ask : Bool) (u : FUnit) (s : State) : Option State :=
  match u.stage with
  | 0 =>
    match restoreBlock n o u s with
    | some s => some s
    | none =>
      match unitBytes s n o u with
      | some b => some (openUnit n o u b s)
      | none => if ask ∧ aheadBytes o + 4096 ≤ 524288 then askBlock n o u s else none
  | 1 => if lanesUp s n then unitStep n o u s else none
  | _ => none

/-- The first unit that can go on. -/
def unitsGo (n : Nat) (o : RunOp) (s : State) (ask : Bool) : List FUnit → Option State
  | [] => none
  | u :: r =>
    match unitGo n o ask u s with
    | some s => some s
    | none => unitsGo n o s (ask && allAsked s n o u) r

/-- Begins the op's next unit: its next frame, or the next row that lies in this churn. An index out of range aborts the
task (R252). -/
def unitNext (n : Nat) (o : RunOp) (s : State) : Option State :=
  if (o.units.dropWhile awaits).length ≥ 64 ∨ aheadBytes o + 4096 > 524288 then none
  else if isIdx s o.op then
    let x := ctxAt s o.op.desc.ctx
    let row := o.op.desc.row
    if o.uRd ≥ idxRows x o.op then none
    else
      let i := routedRow s o.op o.uRd
      let s := routeRow o.op o.uRd s
      if i ≥ o.op.elems / row then some (abortTasks [o.op.id] o.op.desc.ctx n 2 o.uRd s)
      else
        let f := i * row / frameElems
        let q := localFrame (opSeq s o.op) f
        let here := holder s o.op f == n
        some (modRun n o.op.id (fun r => { r with
          uRd := r.uRd + 1
          uDone := if here then r.uDone else r.uDone + 1
          units := if here then r.units ++ [{ u := r.uRd, q := q, g0 := i * row }] else r.units }) s)
  else if o.uRd ≥ opFrames s n o.op then none
  else
    some (modRun n o.op.id (fun r => { r with
      uRd := r.uRd + 1
      units := r.units ++ [{ u := r.uRd, q := r.uRd, g0 := frameAt (opSeq s o.op) n r.uRd * frameElems }] }) s)

/-- The units an op has in churn `n`. -/
def unitCount (s : State) (n : Nat) (o : ChurnOp) : Nat :=
  if isIdx s o then idxRows (ctxAt s o.desc.ctx) o else opFrames s n o

/-- Whether the stage buffer of churn `n` has no room for more of a LOCAL stream. -/
def localFull (s : State) (n ctx : Nat) : Bool :=
  (ctxAt s ctx).kind == 2 && decide ((mget [] (churnAt s n).loc ctx).length ≥ 524288)

/-- The bytes of a place of `w` bytes in a stage buffer; those a refused chain leaves unwritten are free (R182). -/
def fillPlace (w : Nat) (b : List Byte) (s : State) : List Byte × State :=
  if b.length ≥ w then (b, s)
  else
    let m := w - b.length
    (b ++ (List.range m).map fun i => Config.freeByte (s.freeCtr + i), { s with freeCtr := s.freeCtr + m })

/-- Delivers the op's oldest unit where the context has no tiles (R250, R251). -/
def sinkUnit (n : Nat) (o : RunOp) (s : State) : Option State :=
  let i := o.op.desc.ctx
  let x := ctxAt s i
  match o.units with
  | u :: r =>
    let (w, d) := unitPlace s o u
    if u.stage = 2 ∧ (x.kind ≠ 1 ∨ x.tile = 0) ∧ !localFull s n i ∧ firstOut s n o.op then
      let (out, s) := if x.kind = 2 then fillPlace w (u.out.take w) s else (u.out.take w, s)
      let s := sinkPut n o i d (u.q * placeBytes o frameElems) out s
      some (modRun n o.op.id (fun y => { y with units := r, uDone := y.uDone + 1 }) s)
    else none
  | [] => none

/-! ## Row results -/

/-- The context that takes an op's row results: CTX + 1 for a chain with STATOUT (R184), the output context of a cop op (R187). -/
def rowOut (o : RunOp) : Option Nat :=
  if o.op.kind = .cop then copOut o.op else if (runSteps o).any statStep then some (o.op.desc.ctx + 1) else none

/-- Whether a context can take row results (R184, R242, R253; log entry 67). -/
def takesRows (x : Ctx) : Bool := x.st == .opened && (x.kind == 2 || x.kind == 3 || (x.kind == 1 && !x.fwd))

/-- The keys of row results that the home `n` has still to form, the least of each unit and those of the rows whose sums have not all
come. -/
def rowPending (s : State) (n : Nat) (o : RunOp) : List Nat :=
  let row := o.op.desc.row
  let steps := (runSteps o).zipIdx.filterMap fun (c, i) => if statStep c then some i else none
  (s.flits.filterMap fun f =>
    if f.id == o.op.id && f.dst.isNone && f.home.toNat == n then some (4 * f.row + f.step) else none)
  ++ o.units.filterMap fun u =>
    match steps.find? fun i => u.stage == 0 || (u.stage == 1 && (decide (u.step < i) || (u.step == i && !u.asked))) with
    | none => none
    | some i =>
      if isIdx s o.op then some (4 * u.u + i)
      else
        let r := cdiv u.g0 row
        if r * row < u.g0 + unitLen s o.op u then some (4 * r + i) else none

/-- Delivers the results of the next row in row order, once no earlier row's are missing (R184, R187, R242). -/
def rowFlush (n : Nat) (o : RunOp) (s : State) : Option State :=
  match o.rowHeld, rowOut o with
  | (k, d) :: r, some c =>
    if !takesRows (ctxAt s c) then some (modRun n o.op.id (fun y => { y with rowHeld := r }) s)
    else if (rowPending s n o).any (fun p => decide (p < k)) || localFull s n c || !firstOut s n o.op then none
    else
      some (modRun n o.op.id (fun y => { y with rowHeld := r, outPos := y.outPos + d.length })
        (sinkPut n o c (8 * (k / 4)) o.outPos d s))
  | _, _ => none

/-- Whether an op has finished tile `t` in a unit, the whey array being unit 2 (R195, R196). -/
def tileEnded (s : State) (o : RunOp) (unit t : Nat) : Bool :=
  !(o.units.any fun u => outTile s o.op u == t && decide (u.stage < (if unit = 2 then 2 else 1)))
  && (!isIdx s o.op || decide (o.uRd ≥ min (idxRows (ctxAt s o.op.desc.ctx) o.op) ((t + 1) * frameElems / o.op.desc.row)))

/-- The first of several quanta that can be done. -/
def firstOf : List (Unit → Option State) → Option State
  | [] => none
  | f :: r => match f () with | some s => some s | none => firstOf r

/-- One quantum of a stream-out op. -/
def soutGo (n : Nat) (o : RunOp) (s : State) : Option State :=
  if o.aborted then none
  else
    firstOf [fun _ => marksGo n o (tileEnded s o) s, fun _ => rowFlush n o s, fun _ => sinkUnit n o s,
      fun _ => unitsGo n o s true o.units, fun _ => unitNext n o s]

/-- STREAM_OUT_OP's effect on a dispatched op: the chain it copied is checked (R181, R182). -/
def soutStart (n : Nat) (o : RunOp) (s : State) : State :=
  let bad := !chainLegal s n o
  let s := modRun n o.op.id (fun r => { r with started := true, refused := bad, step := s.step.step }) s
  if bad then opFault 0x14 n o.op 0xF1 (arithCount n 0 1 s) else s

/-! ## Tiles -/

/-- The tile a unit delivers next (R248). -/
def unitTile (s : State) (o : RunOp) (u : FUnit) : Nat :=
  o.op.tile0 + ((unitPlace s o u).2 + u.off) / (ctxAt s o.op.desc.ctx).tile

/-- Whether tile `j` may be written: always in a barrier stage, else within the window (R249, R256). -/
def inWindow (x : Ctx) (o : RunOp) (j : Nat) : Bool := o.barrier || decide (j < x.rel.toNat + 2 * x.ht)

/-- Where tile `j` is written (R248, R256). -/
def tileAddr (x : Ctx) (o : RunOp) (j : Nat) : Nat :=
  if o.barrier then x.half 0 + j * x.tile else x.half (j / x.ht) + j % x.ht * x.tile

/-- TILE_DELIVER's effect: the next tile of the op's oldest unit is written and signalled (R248 to R250, R256). -/
def tileOut (n : Nat) (o : RunOp) (s : State) : State :=
  let i := o.op.desc.ctx
  let x := ctxAt s i
  match o.units with
  | u :: r =>
    let j := unitTile s o u
    if o.aborted || u.stage != 2 || x.kind != 1 || x.tile == 0 || !inWindow x o j || !firstOut s n o.op then s
    else
      let w := (unitPlace s o u).1
      let k := min x.tile (w - u.off)
      let d := ((u.out.take w).drop u.off).take k
      let s := fpWrite n (tileAddr x o j) d s
      let s := if o.barrier then s else signal n o i (j / x.ht) 1 s
      let last := u.off + k ≥ w
      modRun n o.op.id (fun y => { y with
        tiles := y.tiles + 1
        uDone := if last then y.uDone + 1 else y.uDone
        units := if last then r else { u with off := u.off + k } :: r }) s
  | [] => s

/-! ## Completion -/

/-- Whether a stream-out op has done all its work in churn `n`; an aborted one stops at once (R263). -/
def soutDone (s : State) (n : Nat) (o : RunOp) : Bool :=
  o.aborted || (o.started && o.units.isEmpty && o.uDone == unitCount s n o.op && o.rowHeld.isEmpty && o.marks.isEmpty
    && !owed s fun w => match w with | .memOut m i => m.toNat == n && i == o.op.id | _ => false)

/-- The signal that ends a churn's part on a context without tiles, or in a barrier stage (R250, R251, R256). -/
def partSignal (n : Nat) (o : RunOp) (ctx : Nat) (s : State) : State :=
  let x := ctxAt s ctx
  let tiled := x.kind == 1 && x.tile != 0
  if x.kind = 2 ∨ (tiled ∧ !o.barrier) then s
  else signal n o ctx 0 (if tiled then o.tiles else 1) s

/-- The last churn finished an op: its row traffic ends, and REFS falls (R63). -/
def soutEnd (t : Task) (s : State) : State :=
  dropRef t.op.desc.entry { s with flits := s.flits.filter fun f => f.id != t.id }

/-- The signal that ends a churn's part on the context of its row results, a sink without tiles (R184, R250, R251). -/
def rowSignal (n : Nat) (o : RunOp) (s : State) : State :=
  match rowOut o with
  | none => s
  | some c => if takesRows (ctxAt s c) && (ctxAt s c).kind != 2 then signal n o c 0 1 s else s

/-- STREAM_OUT_OP_COMPLETE's effect. -/
def soutComplete (n : Nat) (o : RunOp) (s : State) : State :=
  let s := if o.aborted then s else rowSignal n o (partSignal n o o.op.desc.ctx s)
  match partDone n o.op.id (opLeave n o s) with
  | (some t, s) => soutEnd t s
  | (none, s) => s

end Sys2Proof.Machine
end

