-- ==== Sys2Proof/Machine/Cop.lean ====
section
/-! DEFINITION. The churn ops that cop places (R100, R187): LDVEC (R186), ROWDOT (R188) and ROWSTAT, and the arrival of
row partials and statistics (R177). -/

namespace Sys2Proof.Machine

/-- The format of the elements a cop op reads from a context: the declared type of an IN context, tT.FMT otherwise
(log entry 18). -/
def copType (s : State) (o : ChurnOp) (ctx : Nat) : Nat :=
  let x := ctxAt s ctx
  if x.kind = 0 then x.etype else o.desc.fmt

/-- The rank a cop op's LRK elements would have. -/
def copRank (s : State) (ctx : Nat) : Nat := (ctxAt s ctx).rank

/-- LDVEC's slot and whether it holds binary32 (R187). -/
def ldvecSlot (o : ChurnOp) : Nat × Bool := (fld o.ga 10 8, bit o.ga 11)

/-- The words of an op's chain, as the table holds them: none for an op without a chain (R181). -/
def chainWords (s : State) (o : ChurnOp) : Word × Word :=
  if o.kind ≠ .sout ∨ o.desc.chain = 0 then (0, 0) else (rd s (.chainSteps o.desc.chain), rd s (.chainParam o.desc.chain))

/-- The vector slots a chain reads: those of its NORM, ROPE and MUL steps (R181, R186). -/
def slotsRead (steps : Word) : List Nat :=
  (stepsOf steps).flatMap fun (c, a) =>
    match c with
    | 3 => (if a / 8 % 2 = 1 then [a % 8] else []) ++ (if a / 128 % 2 = 1 then [a / 16 % 8] else [])
    | 4 | 5 => [a % 8]
    | _ => []

/-- Whether an op is an LDVEC. -/
def isLdvec (o : ChurnOp) : Bool := o.kind == .cop && fld o.ga 7 0 == 1

/-- Whether an op is a ROWDOT. -/
def isRowdot (o : ChurnOp) : Bool := o.kind == .cop && fld o.ga 7 0 == 2

/-- ROWDOT's O context, HD and output context (R187). -/
def rowdotP (o : ChurnOp) : Nat × Nat × Nat := (fld o.ga 21 8, 2 ^ fld o.ga 25 22, fld o.ga 39 26)

/-- ROWSTAT's job (R187). -/
def rowstatJob (o : ChurnOp) : RowJob :=
  { rms := bit o.ga 22, eps := BitVec.ofNat 32 (fld o.ga 54 23), out := true }

/-- Whether a cop op's operands are ones it can act on (R187, R188). -/
def copLegal (o : ChurnOp) : Bool :=
  let row := o.desc.row
  match fld o.ga 7 0 with
  | 1 => row ≤ (if bit o.ga 11 then 8192 else 16384)
  | 2 => fld o.ga 25 22 ≤ 9 && row != 0 && row % (rowdotP o).2.1 == 0
  | 3 => row != 0
  | _ => false

/-- The start of a cop op: the step is sampled; an op that cannot act raises ILLEGAL_OP with its op code and completes without effect
(R100, R187). -/
def copStart (n : Nat) (o : RunOp) (s : State) : State :=
  let bad := !copLegal o.op
  let s := modRun n o.op.id (fun r => { r with started := true, refused := bad, step := s.step.step }) s
  if bad then opFault 0x14 n o.op (BitVec.ofNat 64 (opCode o.op)) s else s

/-- The bytes an op takes in all from a context: an LDVEC its vector, the others the churn's share (R187, R245). -/
def copTotal (s : State) (n : Nat) (o : ChurnOp) (ctx : Nat) : Nat :=
  let t := copType s o ctx
  if isLdvec o then storedLen t o.desc.row (copRank s ctx) else inShareBytes (opSeq s o) n t (copRank s ctx) o.elems

/-- Takes what a LOCAL context holds for the op, as far as its stage buffer has room: dO, a row stream or a vector into `inbuf`, O into
`inbuf2` (R251, R261). What it does not need stays for the next op on the context (log entry 18). -/
def copPull (n : Nat) (o : RunOp) (s : State) : Option State :=
  let c := churnAt s n
  let part (ctx acc have_ : Nat) : List Byte :=
    (mget [] c.loc ctx).take (min (copTotal s n o.op ctx - acc) (opCap o.op - have_))
  let left (ctx k : Nat) (s : State) : State :=
    modChurn n (fun c => { c with loc := mset [] c.loc ctx ((mget [] c.loc ctx).drop k) }) s
  let a := o.op.desc.ctx
  let b := (rowdotP o.op).1
  let da := part a o.acc o.inbuf.length
  let db := if isRowdot o.op then part b o.acc2 o.inbuf2.length else []
  if !firstOn c o then none
  else if !da.isEmpty then
    some (modRun n o.op.id (fun r => { r with inbuf := r.inbuf ++ da, acc := r.acc + da.length }) (left a da.length s))
  else if !db.isEmpty then
    some (modRun n o.op.id (fun r => { r with inbuf2 := r.inbuf2 ++ db, acc2 := r.acc2 + db.length }) (left b db.length s))
  else none

/-- LDVEC's load, once its elements are there: from an IN context when the share is complete, from a LOCAL one when ROW elements are (R186,
R187; log entry 18). Each element is converted to the slot's format, one that has it too; the draws are those of the elements of the
churn's first frame, and the events count in the format unit (DESIGN CHOICE, log entry 95). An LRK input is read as BF16 elements, +0 past
their end (DESIGN CHOICE, log entry 96). -/
def ldvecGo (n : Nat) (o : RunOp) (s : State) : Option State :=
  let row := o.op.desc.row
  let t := copType s o.op o.op.desc.ctx
  let isIn := (ctxAt s o.op.desc.ctx).kind == 0
  let need := copTotal s n o.op o.op.desc.ctx
  let ready := if isIn then o.acc == inShare s n o.op else need ≤ o.inbuf.length
  if o.flushed then none
  else if need < o.inbuf.length then some (modRun n o.op.id (fun r => { r with inbuf := r.inbuf.take need }) s)
  else if !ready then none
  else
    let k := if need ≤ o.inbuf.length then row else if isMx t then o.inbuf.length / mxS t * 32 else o.inbuf.length / max 1 (fmtW t)
    let (i, wide) := ldvecSlot o.op
    let f := frameAt (opSeq s o.op) n 0
    let sm := outStream o.op
    let cs := encVals (if wide then .f32 else .bf16) (drawAt o sm f) 0 (decElems t k o.inbuf).1
    let vals := cs.map fun c => BitVec.ofNat 32 (if wide then c.c else c.c * 65536)
    let s := fmtTile n o 0 sm f (cvCount cs) s
    let s := modChurn n (fun c => { c with vslots := vset c.vslots i { f32 := wide, v := vals } }) s
    some (modRun n o.op.id (fun r => { r with flushed := true, inbuf := [] }) s)

/-- The frame that holds the first element of the row of element `g`: the tile of ROWDOT's and ROWSTAT's flags (R195). -/
def rowTile (o : ChurnOp) (g : Nat) : Nat := g / o.desc.row * o.desc.row / frameElems

/-- The events of reading `l` elements from element `p` of a piece as their exact values: an MX scale of 0xFF sets the non-finite flag
(R164). -/
def readMark (f p l : Nat) (b : List Byte) : FCnt :=
  let a := p / 32 * 32
  { nf := isMx f && (decElems f (p + l - a) (formPart f a (p + l - a) b)).2 }

/-- The elements of a piece of ROWDOT's work. -/
abbrev dotElems : Nat := 16384

/-- ROWDOT on the next piece of a frame, once dO and O hold all of it (R188). A head is a row of HD elements on the BF16 lanes, P = 32
(R173, R188; log entry 81). -/
def rowdotGo (n : Nat) (o : RunOp) (s : State) : Option State :=
  let (oc, hd, out) := rowdotP o.op
  let f := frameAt (opSeq s o.op) n o.cq
  let e := o.aheadE
  let k := min dotElems (frameLen o.op.elems f - e)
  let ta := copType s o.op o.op.desc.ctx
  let tb := copType s o.op oc
  let ba := frameBytes ta (copRank s o.op.desc.ctx) k
  let bb := frameBytes tb (copRank s oc) k
  if o.cq ≥ opFrames s n o.op ∨ o.inbuf.length < ba ∨ o.inbuf2.length < bb then none
  else
    let ps := ((decElems ta k (o.inbuf.take ba)).1.zip (decElems tb k (o.inbuf2.take bb)).1).map fun (a, b) => exMul a b
    let g := groupsFor hd 32
    let ds := (List.range (k / hd)).map fun j => rne32 (segSum ((ps.drop (j * hd)).take hd) g 32)
    let d := ds.flatMap fun d => toBytes 4 d.v.toNat
    let g0 := f * frameElems + e
    let s := wheyCount n k false s
    let s := sinkPut n o out (4 * (g0 / hd)) o.outPos d s
    let s := (rowsIn o.op.desc.row g0 k).foldl (fun s (r, p, l) =>
      let tile := rowTile o.op (r * o.op.desc.row)
      fmtMark n o.op.id 0 (outStream o.op) tile ((readMark ta p l o.inbuf).add (readMark tb p l o.inbuf2))
        (wheyTile n o (outStream o.op) tile
          (((ds.drop (p / hd)).take (l / hd)).map fun d => (d.v, d.ovf, d.nf)) (false, false) s)) s
    let last := decide (e + k ≥ frameLen o.op.elems f)
    some (modRun n o.op.id (fun r => { r with
      cq := if last then r.cq + 1 else r.cq, aheadE := if last then 0 else e + k
      inbuf := r.inbuf.drop ba, inbuf2 := r.inbuf2.drop bb, outPos := r.outPos + d.length }) s)

/-- The lanes' values of `k` elements of frame `f` of a cop op's input of type `t`: formats that lanes read as they are, and LRK read as
BF16 elements (log entry 96), have no events; the others are widened with the draws of the op's stream (R159, R182; log entry 95). -/
def copLanes (o : RunOp) (t f k : Nat) (b : List Byte) : List Cv :=
  let v := (decElems t k b).1
  if isFloat t ∨ t = 0xB then v.map fun x => { c := (laneIn x).toNat } else encVals .f32 (drawAt o (outStream o.op) f) 0 v

/-- ROWSTAT on the next frame: whole rows are finished, segments go to their homes (R176, R177, R187). -/
def rowstatGo (n : Nat) (o : RunOp) (s : State) : Option State :=
  let f := frameAt (opSeq s o.op) n o.cq
  let k := frameLen o.op.elems f
  let t := copType s o.op o.op.desc.ctx
  let b := frameBytes t (copRank s o.op.desc.ctx) k
  if o.cq ≥ opFrames s n o.op ∨ o.inbuf.length < b then none
  else
    let cs := copLanes o t f k (o.inbuf.take b)
    let v := cs.map fun c => BitVec.ofNat 32 c.c
    let row := o.op.desc.row
    let j := rowstatJob o.op
    let s := wheyCount n k true (modRun n o.op.id (fun r => { r with cq := r.cq + 1, inbuf := r.inbuf.drop b }) s)
    some ((rowsIn row (f * frameElems) k).foldl (fun s (r, p, l) =>
      let sums := segStats ((v.drop p).take l) (rowLen row o.op.elems r) true
      let (f0, c) := rowFrames row o.op.elems r
      let s := fmtMark n o.op.id 0 (outStream o.op) f0 (cvCount ((cs.drop p).take l)) s
      if c = 1 then
        let (_, ln, s) := finishRow n o j f0 (4 * r) r sums.1 sums.2 s
        if ln.ovf || ln.nf then wheyTile n o (outStream o.op) f0 [(ln.v, ln.ovf, ln.nf)] (false, false) s else s
      else
        let h := holder s o.op f0
        let s := sendPartial n o 0 r (f - f0) h sums s
        if h = n then homeRow n o j 0 r s else s) s)

/-- Whether a cop op has finished tile `t`: it has had every frame of the rows that begin in frame `t`, and no sums of those rows are on
their way to this home (R195, R196). -/
def copTileEnded (s : State) (n : Nat) (o : RunOp) (t : Nat) : Bool :=
  let row := o.op.desc.row
  let r := cdiv ((t + 1) * frameElems) row - 1
  let last := (min ((r + 1) * row) o.op.elems - 1) / frameElems
  (decide (o.cq ≥ opFrames s n o.op) || decide (last < frameAt (opSeq s o.op) n o.cq))
  && !(s.flits.any fun f => f.id == o.op.id && f.dst.isNone && f.home.toNat == n && f.row * row / frameElems == t)

/-- One quantum of a cop op. -/
def copGo (n : Nat) (o : RunOp) (s : State) : Option State :=
  if o.aborted || o.refused then none
  else
    firstOf [fun _ => marksGo n o (fun _ => copTileEnded s n o) s, fun _ => rowFlush n o s, fun _ => copPull n o s, fun _ =>
      match fld o.op.ga 7 0 with
      | 1 => ldvecGo n o s
      | 2 => if lanesUp s n && firstOut s n o.op then rowdotGo n o s else none
      | 3 => if lanesUp s n then rowstatGo n o s else none
      | _ => none]

/-- Whether a cop op has done all its work in churn `n`. -/
def copDone (s : State) (n : Nat) (o : RunOp) : Bool :=
  o.aborted || (o.started && (o.refused ||
    (if fld o.op.ga 7 0 = 1 then o.flushed
     else o.cq == opFrames s n o.op && o.rowHeld.isEmpty && o.marks.isEmpty
       && !(s.flits.any fun f => f.id == o.op.id && f.dst.isNone && f.home.toNat == n)
       && !owed s fun w => match w with | .memOut m i => m.toNat == n && i == o.op.id | _ => false)))

/-- The last churn finished an op on an IN context with BSIG (R247). -/
def inSignal (n : Nat) (o : ChurnOp) (s : State) : State :=
  let x := ctxAt s o.desc.ctx
  if x.kind = 0 ∧ x.bsig ∧ x.st = .opened then semAdd x.sem false 1 (churnRec n o) s else s

/-- COP_OP_COMPLETE's effect; an aborted task adds no FULL count (R263). -/
def copComplete (n : Nat) (o : RunOp) (s : State) : State :=
  let s := match copOut o.op with
    | some c => if o.aborted || o.refused then s else partSignal n o c s
    | none => s
  match partDone n o.op.id (opLeave n o s) with
  | (some t, s) =>
    let s := { s with flits := s.flits.filter fun f => f.id != t.id }
    if t.aborted then s else inSignal n t.op s
  | (none, s) => s

/-! ## Row traffic -/

/-- The row job of the step a flit belongs to. -/
def flitJob (o : RunOp) (step : Nat) : Option RowJob :=
  if o.op.kind = .cop then some (rowstatJob o.op)
  else match (runSteps o)[step]? with | some (3, a) => some (normJob o a) | _ => none

/-- ROW_PARTIAL: a partial of row `row`, segment `seg`, reaches its home `n` (R177). -/
def rowPartialIn (n id row seg : Nat) (s : State) : State :=
  let p (f : RowFlit) : Bool := f.id == id && f.row == row && f.seg == seg && f.dst.isNone && !f.arrived && f.home.toNat == n
  match s.flits.find? p with
  | none => s
  | some f =>
    let s := { s with flits := lmod p (fun x => { x with arrived := true }) s.flits }
    match runAt s n id with
    | none => s
    | some o => match flitJob o f.step with | some j => homeRow n o j f.step row s | none => s

/-- ROW_STATS_ARRIVE: the statistics of a row reach churn `n` (R177). -/
def rowStatsIn (n id row : Nat) (s : State) : State :=
  let p (f : RowFlit) : Bool := f.id == id && f.row == row && f.dst == some (BitVec.ofNat 5 n) && !f.arrived
  { s with flits := lmod p (fun x => { x with arrived := true }) s.flits }

end Sys2Proof.Machine
end

