-- ==== Sys2Proof/Machine/Reenc.lean ====
section
/-! DEFINITION. Rung-1 re-encodes (R66, R76, R79, R143, R149): a churn reads an entry frame by frame, converts it one step
down the chain, and stores it in new chunks; the new map takes effect once every churn has stored its share. -/

namespace Sys2Proof.Machine

/-- The blocks and stored bytes of a re-encode's new share. -/
def reencStored (s : State) (n : Nat) (o : ChurnOp) : Nat := storedShare (opSeq s o) n o.fmt.toNat o.rank o.elems

/-- Whether churn `n` has stored all of its share in the new format. -/
def reencStoredAll (s : State) (n : Nat) (o : RunOp) : Bool :=
  o.started && decide (4096 * o.blk ≥ reencStored s n o.op) && !storesOwed s n o.op.id

/-- Whether every churn of a re-encode has stored its share. -/
def reencAll (s : State) (o : ChurnOp) : Bool :=
  (maskList o.mask).all fun n => match runAt s n o.id with | some r => reencStoredAll s n r | none => false

/-- The start of a re-encode in a churn (R149): its stored sectors are noted, and a generation it wanted and did not
get is reported once. -/
def reencStart (n : Nat) (o : RunOp) (s : State) : State :=
  let s := modRun n o.op.id (fun r => { r with started := true, acc := mget 0 (churnAt s n).sects o.op.desc.entry }) s
  if o.op.noGen then opFault 5 n o.op 0 s else s

/-- The elements that the first `b` bytes of a frame hold whole in format `f`, and those they hold any part of (R155). -/
def elemsWhole (f b : Nat) : Nat := if isMx f then b / mxS f * 32 else b / fmtW f
/-- The elements of a frame that its first `b` bytes hold a part of. -/
def elemsMet (f b : Nat) : Nat := if isMx f then cdiv b (mxS f) * 32 else cdiv b (fmtW f)

/-- The blocks of churn `n`'s old share. -/
def oldBlocks (s : State) (n : Nat) (o : ChurnOp) : Nat := cdiv (storedShare (opSeq s o) n o.cur.toNat o.rank o.elems) 4096

/-- The old blocks, in map order, whose elements are all in new blocks that have been stored. -/
def oldRewritten (s : State) (n : Nat) (o : RunOp) : Nat :=
  let kn := fmtK o.op.fmt.toNat o.op.rank
  let ko := fmtK o.op.cur.toNat o.op.rank
  let z := elemsWhole o.op.fmt.toNat (4096 * (o.blk % kn))
  if decide (4096 * o.blk ≥ reencStored s n o.op) then oldBlocks s n o.op
  else o.blk / kn * ko + ((List.range ko).filter fun i => decide (elemsMet o.op.cur.toNat (4096 * (i + 1)) ≤ z)).length

/-- What the map in the cache tells of the old blocks from `i` on: the chunk of the first one with sectors, none if no more has any, or
the map word that is not in the cache. The first argument bounds the blocks looked at. -/
def oldAhead (s : State) (n : Nat) (o : RunOp) : Nat → Nat → Option Nat ⊕ Nat
  | 0, _ => .inl none
  | k + 1, i =>
    if i ≥ (entAt s o.op.desc.entry).mapLen.toNat then .inl none
    else
      match mapWord s n o.op.desc.entry i with
      | none => .inr i
      | some m => if mapBad m || mapSect m == 0 then oldAhead s n o k (i + 1) else .inl (some (chunkOf s (mapLoc m)))

/-- Gives old chunks back. -/
def reencReturn (n : Nat) (o : RunOp) (l : List (Nat × Nat)) (s : State) : Option State :=
  if l.isEmpty then none
  else
    let k := l.map (·.1)
    some (markSome k n (modRun n o.op.id (fun r => { r with olds := r.olds.drop l.length, given := r.given ++ k }) s))

/-- Returns the old chunks whose last block has been rewritten (R76). Whether the one read last holds more blocks, the map of the blocks
to come tells, which is read where it is not in the cache. -/
def reencGiveBack (n : Nat) (o : RunOp) (s : State) : Option State :=
  let done := oldRewritten s n o
  let ready := o.olds.takeWhile fun x => decide (x.2 < done)
  if ready.length < o.olds.length then reencReturn n o ready s
  else
    match ready.getLast? with
    | none => none
    | some (c, _) =>
      let from_ := (o.uRd - o.units.length) * fmtK o.op.cur.toNat o.op.rank
      match oldAhead s n o (oldBlocks s n o.op - from_) from_ with
      | .inl k => reencReturn n o (if k == some c then ready.dropLast else ready) s
      | .inr i =>
        match reencReturn n o ready.dropLast s with
        | some s => some s
        | none =>
          let g := mapKey s o.op.desc.entry i / 8 * 8
          if o.badLines.contains g || owed s (fun x => x == .mapRd (BitVec.ofNat 5 n) o.op.id g o.op.desc.entry) then none
          else some (mapFill n o.op.id o.op.desc.entry i s)

/-- Stores the next block of the new form, once its bytes are there. -/
def reencBlock (n : Nat) (o : RunOp) (s : State) : Option State :=
  let b := blockLen (reencStored s n o.op) o.blk
  if b = 0 ∨ o.sto.length < b then none
  else
    match putBlock n o.op o.op.fmt.toNat o.blk (o.sto.take b) s with
    | none => none
    | some (m, s) =>
      let c := (mget noOpen (churnAt s n).opens o.op.desc.entry).c
      let left := o.sto.drop b
      let s := modRun n o.op.id (fun r => { r with
        blk := r.blk + 1, sto := left, newMap := r.newMap ++ [m]
        news := if fld m 63 62 = 2 ∨ r.news.contains c then r.news else r.news ++ [c] }) s
      some s

/-- Converts the frame that has been restored (R76, R117, R160). -/
def reencFrame (n : Nat) (o : RunOp) (u : FUnit) (s : State) : Option State :=
  match unitBytes s n o u with
  | none => none
  | some b =>
    let f := frameAt (opSeq s o.op) n u.q
    let st := 0x40000 + o.op.desc.entry
    let (v, nf) := decElems o.op.cur.toNat (frameLen o.op.elems f) b
    let (y, c) := encFrame o.op.fmt.toNat (drawAt o st f) 0 v
    let first := u.q * fmtK o.op.cur.toNat o.op.rank
    let ks := (u.blks.filter fun x => !mapBad x.map && mapSect x.map != 0).map fun x => (chunkOf s (mapLoc x.map), first + x.i)
    let olds := ks.foldl (fun a k => if a.getLast?.map (·.1) == some k.1 then a.dropLast ++ [k] else a ++ [k]) o.olds
    let s := modRun n o.op.id (fun r => { r with sto := r.sto ++ y, units := [], olds := olds }) s
    some (fmtTile n o 0 st f { c with nf := c.nf || nf } s)

/-- Installs the words of a new map from index `i` on while their lines are in the cache: the words left, the old words replaced, and the
state. -/
def installMap (n e : Nat) : List Word → Nat → State → List Word × List Word × State
  | [], _, s => ([], [], s)
  | w :: r, i, s =>
    match (if i ≥ (entAt s e).mapLen.toNat then some 0 else mapWord s n e i) with
    | none => (w :: r, [], s)
    | some old =>
      let x := installMap n e r (i + 1) (mapStore n e i w s)
      (x.1, old :: x.2.1, x.2.2)

/-- Puts the new map of churn `n` in place of the old one, its lines read into the cache first, and writes it back (R60, R61, R76). A line
that cannot be read ends the action (R79). -/
def reencMap (n : Nat) (o : RunOp) (s : State) : Option State :=
  let e := o.op.desc.entry
  if o.newMap.isEmpty then
    if mapPending s n e then none else some (mapFlush n e (modRun n o.op.id (fun r => { r with flushed := true }) s))
  else
    let i := o.oldMap.length
    let (rest, old, t) := installMap n e o.newMap i s
    if !old.isEmpty then some (modRun n o.op.id (fun r => { r with newMap := rest, oldMap := r.oldMap ++ old }) t)
    else
      let g := mapKey s e i / 8 * 8
      if o.badLines.contains g then
        some (opFault 1 n o.op (BitVec.ofNat 64 (dpaOf (ilv s) n (mapLocal s (entAt s e) i))) (modRun n o.op.id (fun r => { r with fault := true }) s))
      else if owed s (fun x => x == .mapRd (BitVec.ofNat 5 n) o.op.id g e) then none
      else some (mapFill n o.op.id e i s)

/-- Takes the churns' parts of a re-encode away: their references and the task. Its action lasts until its chunks are returned. -/
def reencLeave (o : ChurnOp) (s : State) : State :=
  let s := (maskList o.mask).foldl (fun s n => match runAt s n o.id with | some r => opLeave n r s | none => s) s
  actionReturns o.desc.entry .reenc { s with tasks := s.tasks.filter fun t => t.id != o.id }

/-- An old chunk that a re-encode gave back belongs to the entry again, unless another entry has taken it (R79). One that the re-encode itself
took again for new blocks stays the entry's, with the new bytes in it, under the old map (DEDUCED, log entry 74). -/
def retake (e : Nat) (c : Churn) (k : Nat) : Churn :=
  let x := mget noChunk c.chunks k
  if x.e = e ∨ x = noChunk then { c with chunks := mset noChunk c.chunks k { e := e } } else c

/-- Undoes what a re-encode stored in churn `n`: the new chunks are marked for return, the old ones are the entry's again, the sectors
count as before, and the old map words stand again. -/
def reencUndo (o : ChurnOp) (s : State) (n : Nat) : State :=
  let e := o.desc.entry
  match runAt s n o.id with
  | none => s
  | some r =>
    if !r.started then s
    else
      let now := mget 0 (churnAt s n).sects e
      let s := modEnt e (fun x => { x with sectors := x.sectors - BitVec.ofNat 40 (now - r.acc) }) s
      let s := closeChunk n e (markSome r.news n (modChurn n (fun c => { c with sects := mset 0 c.sects e r.acc }) s))
      let s := r.oldMap.zipIdx.foldl (fun s y => mapStore n e y.2 y.1 s) s
      noteFree (modChurn n (fun c => r.given.foldl (retake e) c) s)

/-- The early end of a re-encode (R79): the entry keeps its format, and the controller passes over it for the rest of
the episode. -/
def reencFail (o : ChurnOp) (s : State) : State :=
  let e := o.desc.entry
  let s := (maskList o.mask).foldl (reencUndo o) s
  let s := dropRef e (reencLeave o s)
  ladderEval { s with ladder := { s.ladder with passed := s.ladder.passed ++ [4 * e + 1, 4 * e + 2, 4 * e + 3] } }

/-- One quantum of a re-encode. -/
def reencGo (n : Nat) (o : RunOp) (s : State) : Option State :=
  if !o.started then some (reencStart n o s)
  else if o.fault then some (reencFail o.op s)
  else if o.flushed then none
  else
    match (reencGiveBack n o s).orElse fun _ => reencBlock n o s with
    | some s => some s
    | none =>
      if decide (4096 * o.blk ≥ reencStored s n o.op) then
        if reencAll s o.op then reencMap n o s else none
      else
        match o.units with
        | u :: _ =>
          match askBlock n o u s with
          | some s => some s
          | none =>
            match restoreBlock n o u s with
            | some s => some s
            | none => if o.sto.length < 4096 then reencFrame n o u s else none
        | [] =>
          let f := frameAt (opSeq s o.op) n o.uRd
          if o.uRd < opFrames s n o.op ∧ segRoom s n o.op.id (frameStored o.op (frameLen o.op.elems f)) then
            some (modRun n o.op.id (fun r => { r with
              uRd := r.uRd + 1, units := [{ u := r.uRd, q := r.uRd, g0 := f * frameElems }] }) s)
          else none

/-- Whether the re-encode of an entry has finished in every churn. -/
def reencDone (s : State) (o : ChurnOp) : Bool :=
  (maskList o.mask).all fun n =>
    match runAt s n o.id with
    | some r => r.flushed && !mapOwed s n o.desc.entry
    | none => false

/-- A churn's part of the end of a re-encode: the old chunks are returned, the sectors counted afresh, and the tag moves
to the action's generation (R76, R149). -/
def reencSettle (o : ChurnOp) (s : State) (n : Nat) : State :=
  let e := o.desc.entry
  match runAt s n o.id with
  | none => s
  | some r =>
    let now := mget 0 (churnAt s n).sects e
    let s := modEnt e (fun x => { x with sectors := x.sectors - BitVec.ofNat 40 r.acc }) s
    let old := ((churnAt s n).chunks.filter fun x => x.2.e == e && !r.news.contains x.1).map (·.1)
    let s := closeChunk n e (markSome old n (modChurn n (fun c => { c with sects := mset 0 c.sects e (now - r.acc) }) s))
    match r.op.gen with
    | some g => modChurn n (setTag e (.gen g)) s
    | none => s

/-- REENCODE_COMPLETE's effect: CUR_FMT changes, and the ladder is evaluated (R74, R76). -/
def reencEnd (o : ChurnOp) (s : State) : State :=
  let e := o.desc.entry
  let s := reencLeave o ((maskList o.mask).foldl (reencSettle o) s)
  ladderEval (bumpCel 0 (dropRef e (modEnt e (fun x => { x with cur := o.fmt }) s)))

/-- The re-encode in progress on an entry. -/
def reencOf (s : State) (e : Nat) : Option ChurnOp :=
  (s.tasks.find? fun t => t.op.kind == .reenc && t.op.desc.entry == e).map (·.op)

end Sys2Proof.Machine
end

