-- ==== Sys2Proof/Machine/UpdArith.lean ====
section
/-! DEFINITION. The arithmetic of the parameter update: rules, catch-up factors and schedules (R298 to R306). -/

namespace Sys2Proof.Machine

/-- The high half of a rule word, as binary32. -/
def hi32 (w : Word) : BitVec 32 := w.extractLsb' 32 32

/-- The low half of a rule word, as binary32. -/
def lo32 (w : Word) : BitVec 32 := w.extractLsb' 0 32

/-- The evaluation the update op uses: SFU_CFG.COMPAT and the images of its banks (R207, R300). -/
structure Eval where
  compat : Bool
  imgs : List (List Word)
deriving DecidableEq, Repr

/-- The image of table `t`. -/
def Eval.img (e : Eval) (t : Nat) : List Word := e.imgs.getD t []

/-- sfu(F, x) of R300. -/
def Eval.f (e : Eval) (fn : Nat) (x : BitVec 32) : Ln :=
  sfu e.compat fn (match funcTab fn with | some t => e.img t | none => []) x

/-- bcf (R300): 1 ÷ (1 - b^t), t a 32-bit count. -/
def bcf (e : Eval) (b : BitVec 32) (t : Nat) : Ln :=
  (e.f 3 b).bind fun l => (mulL (intL false (t % 2 ^ 32)).v l).bind fun x => (e.f 1 x).bind fun p =>
    (subL one32 p).bind fun y => e.f 5 y

/-- A parameter's new weight, M and V, the flags it set, and whether FLOOR replaced its divisor (R300, R301). -/
structure UpdR where
  w : BitVec 32
  m : BitVec 32
  v : BitVec 32
  ovf : Bool := false
  nf : Bool := false
  floor : Bool := false
deriving DecidableEq, Repr

/-- upd_elem (R300) for the words of a rule; `eta` is the schedule's rate and `t` its count plus 1. -/
def updElem (e : Eval) (r : List Word) (eta : BitVec 32) (t : Nat) (g w m v : BitVec 32) : UpdR :=
  let c (i : Nat) := nth r i
  let B1 := hi32 (c 0); let C1 := lo32 (c 0); let B2 := hi32 (c 1); let C2 := lo32 (c 1)
  let AM := hi32 (c 2); let AN := lo32 (c 2); let AG := hi32 (c 3); let GS := lo32 (c 3)
  let LRS := hi32 (c 4); let WD := lo32 (c 4); let EPS := hi32 (c 5); let FLOOR := lo32 (c 5)
  let bcor := bit (c 6) 7
  let g1 := mulL GS g
  let m1 := g1.bind fun g1 => (mulL C1 g1).bind fun x => fmaL B1 m x
  let v1 := g1.bind fun g1 => (mulL g1 g1).bind fun y => (mulL C2 y).bind fun x => fmaL B2 v x
  let an : Ln := if bcor then (bcf e B1 t).bind fun b => mulL AN b else .pure AN
  let vv : Ln := if bcor then v1.bind fun v1 => (bcf e B2 t).bind fun b => mulL v1 b else v1
  let u := g1.bind fun g1 => (mulL AG g1).bind fun x => an.bind fun an => m1.bind fun m1 =>
    (fmaL an m1 x).bind fun y => fmaL AM m y
  let mode := fld (c 6) 1 0
  let s : Ln := vv.bind fun vv => if isZeroF vv then .pure 0 else (e.f 6 vv).bind fun x => mulL vv x
  let q : Ln := s.bind fun s => addL s EPS
  let fl := mode = 2 && isZeroF q.v
  let d : Ln :=
    if mode = 0 then u
    else if mode = 1 then u.bind fun u =>
      .pure (if nonFin u || isZeroF u then 0 else if negOf u then negF one32 else one32)
    else (if fl then { q with v := FLOOR } else q).bind fun q => (e.f 5 q).bind fun x => u.bind fun u => mulL u x
  let lr := mulL eta LRS
  let w1 := lr.bind fun lr => (mulL lr WD).bind fun x => (fmaL (negF x) w w).bind fun y =>
    d.bind fun d => fmaL (negF lr) d y
  { w := w1.v, m := m1.v, v := v1.v, ovf := w1.ovf || m1.ovf || v1.ovf || (bcor && vv.ovf),
    nf := w1.nf || m1.nf || v1.nf || (bcor && vv.nf), floor := fl }

/-- The catch-up factors fm, fv and fw for `k` skipped steps (R305). -/
def catchup (e : Eval) (r : List Word) (eta : BitVec 32) (k : Nat) : Ln × Ln × Ln :=
  let kk := (intL false k).v
  let p (b : Ln) : Ln := b.bind fun b => (e.f 3 b).bind fun l => (mulL kk l).bind fun x => e.f 1 x
  (p (.pure (hi32 (nth r 0))), p (.pure (hi32 (nth r 1))),
   p ((mulL eta (hi32 (nth r 4))).bind fun lr => (mulL lr (lo32 (nth r 4))).bind fun x => subL one32 x))

/-- 0 ≤ b < 1, for BCOR (R299). -/
def inUnit (b : BitVec 32) : Bool := !nonFin b && (isZeroF b || !negOf b) && ltF b one32

/-- Whether a rule is legal for a region with M and V planes as given, apart from its schedule and tables (R299). -/
def ruleLegal (r : List Word) (hasM hasV : Bool) : Bool :=
  let c (i : Nat) := nth r i
  let mode := fld (c 6) 1 0
  let coeffs := (List.range 6).flatMap fun i => [hi32 (c i), lo32 (c i)]
  let fl := lo32 (c 5)
  mode ≠ 3 && coeffs.all (fun x => !nonFin x) &&
  (mode ≠ 2 || (!isZeroF fl && !negOf fl)) &&
  ((mode ≠ 2 && isZeroF (lo32 (c 1))) || hasV) &&
  ((isZeroF (hi32 (c 0)) && isZeroF (lo32 (c 0)) && isZeroF (hi32 (c 2)) && isZeroF (lo32 (c 2))) || hasM) &&
  (!bit (c 6) 7 || (inUnit (hi32 (c 0)) && inUnit (hi32 (c 1))))

/-- The tables a rule needs (R299). -/
def ruleTabs (r : List Word) (emb : Bool) : List Nat :=
  (if fld (nth r 6) 1 0 = 2 then [3, 2] else []) ++ (if bit (nth r 6) 7 then [0, 1, 2] else []) ++
    (if emb then [0, 1] else [])

/-- An exact real number n ÷ d × 2^e, or its square root, rounded once to binary32; nothing where it
lies outside the finite range (R306). -/
def rndQ (neg : Bool) (n d : Nat) (e : Int) : Option (BitVec 32) :=
  let s := 300 + flog2 d
  let x := lnRound neg (n <<< s / d) (e - s) (n <<< s % d ≠ 0)
  if n = 0 then some 0 else if x.ovf then none else some x.v

/-- A finite binary32 value as an integer times 2^-149. -/
def fix149 (x : BitVec 32) : Int :=
  match f32 x with
  | .fin n m e => let v : Int := (m <<< (e + 149).toNat : Nat); if n then -v else v
  | _ => 0

/-- arctan (1 ÷ k) times 2^b, by its series; `n` terms from term `i` on, `t` the current power. -/
def atanSeries (k : Nat) : Nat → Nat → Int → Int
  | 0, _, _ => 0
  | n + 1, i, t => (if i % 2 = 0 then t / (2 * i + 1) else -(t / (2 * i + 1))) + atanSeries k n (i + 1) (t / (k * k))

/-- π times 2^b. -/
def piFix (b : Nat) : Int :=
  4 * (4 * atanSeries 5 (b / 4) 0 (2 ^ b / 5) - atanSeries 239 (b / 4) 0 (2 ^ b / 239))

/-- The cosine series on y times 2^b: `n` terms from term `i` on, `t` the current term. -/
def cosSeries (b : Nat) (yy : Int) : Nat → Nat → Int → Int
  | 0, _, _ => 0
  | n + 1, i, t => t + cosSeries b yy n (i + 1) (-(t * yy / 2 ^ b) / ((2 * i + 1) * (2 * i + 2)))

/-- cos (π × c ÷ d) times 2^400 for c at most d: exact where it is rational, else within 2^-380. -/
def cosPi (c d : Nat) : Int :=
  let u : Int := 2 ^ 400
  if c = 0 then u else if c = d then -u
  else if 2 * c = d then 0 else if 3 * c = d then u / 2 else if 3 * c = 2 * d then -(u / 2)
  else
    let y := piFix 400 * c / d
    cosSeries 400 (y * y / 2 ^ 400) 120 0 u

/-- η of a schedule with registers cfg, val and rf after `s` committed steps (R306). Nothing where the
exact value lies outside the range of binary32, where no value is stated. -/
def schedEta (cfg val rf : Word) (s : Nat) : Option (BitVec 32) :=
  let pk := hi32 val
  let mn := lo32 val
  let rff := lo32 rf
  if nonFin pk || nonFin mn || nonFin rff then some qnan
  else
    let w := fld cfg 23 0
    let d := max 1 (fld cfg 55 32)
    let p0 := fix149 pk
    if s < w then rndQ (p0 < 0) (p0.natAbs * (s + 1)) w (-149)
    else
      let rst := bit cfg 60
      let j := if rst then (s - w) / d else 0
      let c := if rst then (s - w) % d else min (s - w) d
      -- P = p × 2^x, and MIN on the same grid
      let p := p0 * fix149 rff ^ j
      let x : Int := -149 * (j + 1)
      let mi := fix149 mn * 2 ^ (149 * j)
      match fld cfg 62 61 with
      | 0 => rndQ (p < 0) p.natAbs 1 x
      | 1 =>
        let v := mi * d + (p - mi) * (d - c : Nat)
        rndQ (v < 0) v.natAbs d x
      | 2 =>
        let v := mi * 2 ^ 401 + (p - mi) * (2 ^ 400 + cosPi c d)
        rndQ (v < 0) v.natAbs 1 (x - 401)
      | _ =>
        -- |P| √(d ÷ (d + c)) = √(P² d ÷ (d + c))
        let n := p.natAbs ^ 2 * d
        let q := (n <<< 600) / (d + c)
        let r := Nat.sqrt q
        let y := lnRound (p < 0) r (x - 300) (r * r ≠ q || (n <<< 600) % (d + c) ≠ 0)
        if p = 0 then some 0 else if y.ovf then none else some y.v

end Sys2Proof.Machine
end

