-- ==== Sys2Proof/Machine/Update.lean ====
section
/-! DEFINITION. Parameter regions (R289 to R292), the update op (R293 to R305) and the schedules (R306, R307). -/

namespace Sys2Proof.Machine

/-! ## Regions -/

/-- A region as its registers describe it (R289). -/
structure Prm where
  k : Nat
  cfg : Word
  size : Word
  b0 : Nat
  b1 : Nat

/-- Region `k`. -/
def prm (s : State) (k : Nat) : Prm :=
  { k := k, cfg := rd s (.prmCfg k), size := rd s (.prmSize k), b0 := (rd s (.prmBuf0 k)).toNat, b1 := (rd s (.prmBuf1 k)).toNat }

/-- EN. -/
def Prm.en (p : Prm) : Bool := bit p.cfg 63
/-- FROZEN. -/
def Prm.frozen (p : Prm) : Bool := bit p.cfg 62
/-- EMB. -/
def Prm.emb (p : Prm) : Bool := bit p.cfg 61
/-- FIRQ. -/
def Prm.firq (p : Prm) : Bool := bit p.cfg 60
/-- SWT. -/
def Prm.swt (p : Prm) : Nat := fld p.cfg 59 56
/-- RLOG. -/
def Prm.rlog (p : Prm) : Nat := fld p.cfg 55 51
/-- VT. -/
def Prm.vt (p : Prm) : Nat := fld p.cfg 37 36
/-- MT. -/
def Prm.mt (p : Prm) : Nat := fld p.cfg 35 34
/-- WT. -/
def Prm.wt (p : Prm) : Nat := fld p.cfg 33 32
/-- CHMASK. -/
def Prm.mask (p : Prm) : BitVec 32 := p.cfg.setWidth 32
/-- RL. -/
def Prm.rl (p : Prm) : Nat := fld p.size 63 46
/-- FPC. -/
def Prm.fpc (p : Prm) : Nat := fld p.size 45 32
/-- NFR. -/
def Prm.nfr (p : Prm) : Nat := fld p.size 23 0

/-- The state planes in order, with their element widths: 0 W or HI, 1 LO, 2 M, 3 V (R290). -/
def Prm.planes (p : Prm) : List (Nat × Nat) :=
  (match p.wt with | 0 => [(0, 4)] | 1 => [(0, 2), (1, 2)] | _ => [(0, 2)])
  ++ (match p.mt with | 1 => [(2, 4)] | 2 => [(2, 2)] | _ => [])
  ++ (match p.vt with | 1 => [(3, 4)] | 2 => [(3, 2)] | _ => [])

/-- Rows of a frame of an embedding region. -/
def Prm.rows (p : Prm) : Nat := frameElems / 2 ^ p.rlog

/-- SZ of a plane (R290); plane 4 is CNT. -/
def Prm.sz (p : Prm) (pl : Nat) : Nat :=
  if pl = 4 then (if p.emb then 4 * p.rows else 0)
  else frameElems * ((p.planes.find? fun x => x.1 == pl).map (·.2)).getD 0

/-- The bytes per frame of all planes. -/
def Prm.frameSz (p : Prm) : Nat := (List.range 5).foldl (fun a i => a + p.sz i) 0

/-- prm_local of R290, for buffer `b`; `wd` is the element width. -/
def Prm.loc (p : Prm) (b pl q e wd : Nat) : Nat :=
  localOf (if b = 0 then p.b0 else p.b1) + p.fpc * ((List.range pl).foldl (fun a i => a + p.sz i) 0) + q * p.sz pl + wd * e

/-- The deal sequence of a region. -/
def prmSeq (s : State) (p : Prm) : List Nat := dealSeq s p.mask p.swt

/-- Churn `n`'s share of a buffer in bytes (R290). -/
def Prm.share (p : Prm) : Nat := p.fpc * p.frameSz

/-- The end of a buffer in the address space: every churn's share starts at the same stack-local address. -/
def bufEnd (p : Prm) (b : Nat) : Nat := localOf b + p.share

/-- Whether a stack-local range meets the cellar's shares (R52, R251, R291). -/
def meetsCellar (s : State) (a len : Nat) : Bool :=
  celSize s != 0 && decide (a < celLocal s + celSize s * 2 ^ 20) && decide (celLocal s < a + len)

/-- Whether region `k` may be enabled with these register values (R291). -/
def prmCheck (s : State) (p : Prm) : Bool :=
  let seq := prmSeq s p
  p.wt != 3 && p.mt != 3 && p.vt != 3
  && (List.range 32).all (fun n => decide (framesOf seq n p.nfr ≤ p.fpc))
  && (!p.emb || (decide (p.rlog ≤ 17) && decide (1 ≤ p.rl) && decide (p.rl ≤ 2 ^ p.rlog)))
  && [p.b0, p.b1].all fun b => decide (bufEnd p b ≤ stackEnd) && !meetsCellar s (localOf b) p.share

/-! ## The update op -/

/-- The region of an update op (R293). -/
def updPrm (s : State) (o : ChurnOp) : Prm := prm s (o.desc.layer % 256)

/-- FRAME0 (R293). -/
def frame0 (o : ChurnOp) : Nat := o.desc.need

/-- Adds to a field of CH_UPD_EVT: 3 FROZEN, 2 FLOOR, 1 CATCHUP, 0 FRAMES. -/
def updCount (n f k : Nat) (s : State) : State :=
  modChurn n (fun c => { c with updEvt := satFld c.updEvt (16 * f + 15) (16 * f) k }) s

/-- UPDATE_OP's effect on a dispatched op: the rule it copied is checked, a frozen or illegal op records its skip
(R298, R299, R303). -/
def updStart (n : Nat) (o : RunOp) (s : State) : State :=
  let p := updPrm s o.op
  let r := o.rule
  let sch := fld (nth r 6) 6 4
  let ok := ruleLegal r (p.mt != 0) (p.vt != 0) && s.step.schEn.getLsbD sch
    && (ruleTabs r p.emb).all fun t => (bankImg s n o t).isSome
  let skip := !ok || p.frozen
  let s := modRun n o.op.id (fun x => { x with
    started := true, refused := skip, step := s.step.step }) s
  let s := if ok then s else opFault 0x14 n o.op 0xF3 s
  if !skip then s
  else if p.firq then raise 0xF (churnRec n o.op) (BitVec.ofNat 64 p.k) s
  else countFault 0xF s

/-- The evaluation of an update op. -/
def updEval (s : State) (n : Nat) (o : RunOp) : Eval :=
  { compat := o.compat, imgs := (List.range 8).map fun t => (bankImg s n o t).getD [] }

/-- The stream of an update op's draws for plane number `j` (R302). -/
def updStream (p : Prm) (j : Nat) : Nat := 0x200000 + 16 * p.k + j

/-- The rate and the count of an op's schedule (R300). -/
def updRate (s : State) (o : RunOp) : BitVec 32 × Nat :=
  let sch := fld (nth o.rule 6) 6 4
  (s.step.lr.getD sch 0, (rd s (.schedCnt sch)).toNat + 1)

/-- The draws of a gradient's widening (R157, R160, R295; log entry 88). -/
def gradDraw (o : RunOp) (f : Nat) : DrawAddr := drawAt o (0xC0000 + o.op.desc.entry) f

/-- `m` gradient elements of type `f` widened to binary32, the first being element `e0` of its frame, and the events of those that
`live` names (R157, R171, R295). -/
def gradElems (f : Nat) (a : DrawAddr) (e0 m : Nat) (live : Nat → Bool) (b : List Byte) : List (BitVec 32) × FCnt :=
  let cs := encVals .f32 a e0 (decElems f m b).1
  (cs.map fun c => BitVec.ofNat 32 c.c, cvCount (((cs.zipIdx e0).filter fun c => live c.2).map (·.1)))

/-- Reads a run of a plane: pieces of at most 512 B, each with its own owner. -/
def planeRead (n id f e0 pl a len : Nat) (s : State) : State :=
  (cuts 512 a len).zipIdx.foldl (fun s (x, i) => mpRead n x.1 x.2 (.updRd (BitVec.ofNat 5 n) id f e0 (8 * i + pl)) s) s

/-- Changes the segment of frame `f` that starts at element `e0`. -/
def modSeg (n id f e0 : Nat) (g : USeg → USeg) (s : State) : State :=
  modRun n id (fun r => { r with usegs := lmod (fun x => x.frame == f && x.e0 == e0) g r.usegs }) s

/-- The plane bytes a segment has. -/
def USeg.plane (g : USeg) (pl : Nat) : List Byte :=
  let m := g.got.filter fun x => x.1 == pl
  (List.range m.length).flatMap fun i => ((m.find? fun x => x.2.1 == i).map (·.2.2)).getD []

/-- Elements of a segment of a region without rows, and of a piece of a row. -/
abbrev segElems : Nat := 128

/-- The elements of a segment that are in work: all of it, or the next piece of a row. -/
def USeg.piece (g : USeg) (p : Prm) : Nat := if p.emb then min segElems (g.k - g.pos) else g.k

/-- Asks for the state planes of a segment in buffer `b`: of all of it, or of the next piece of a row. -/
def segRead (n : Nat) (o : RunOp) (p : Prm) (g : USeg) (b : Nat) (s : State) : State :=
  let q := localFrame (prmSeq s p) g.frame
  let k := g.piece p
  let e := g.e0 + g.pos
  let stamps := g.got.filter fun x => decide (4 ≤ x.1)
  let w := p.planes.foldl (fun a x => a + (cuts 512 (p.loc b x.1 q e x.2) (x.2 * k)).length) 0
  let s := modSeg n o.op.id g.frame g.e0 (fun y => { y with got := stamps, want := stamps.length + w, issued := true }) s
  p.planes.foldl (fun s x => planeRead n o.op.id g.frame g.e0 x.1 (p.loc b x.1 q e x.2) (x.2 * k) s) s

/-- The bytes of state an element of a region has. -/
def Prm.elemSz (p : Prm) : Nat := p.planes.foldl (fun a x => a + x.2) 0

/-- The bytes of the update scratch that a segment holds (R295). -/
def segHeld (p : Prm) (g : USeg) : Nat :=
  if p.emb then 8 + (if g.issued then g.piece p * p.elemSz else 0) else g.k * p.elemSz

/-- Whether an op finds `k` more bytes in its churn's update scratch of 256 KiB (R295). -/
def scratchRoom (p : Prm) (o : RunOp) (k : Nat) : Bool := decide (o.usegs.foldl (fun a g => a + segHeld p g) 0 + k ≤ 262144)

/-- A stamp a segment has read: 0 or 1 for the buffer. -/
def USeg.stamp (g : USeg) (b : Nat) : Nat := ofBytes (g.plane (4 + b))

/-- The live buffer of a row at epoch `e` (R304). -/
def liveBuf (e s0 s1 : Nat) : Nat :=
  if s1 ≤ e ∧ (e < s0 ∨ s0 < s1) then 1 else 0

/-- Notes that `k` elements of a frame are done, with the marks they set; a frame that is complete counts and its tile ends
(R195, R196, R303). -/
def frameNote (n : Nat) (o : RunOp) (p : Prm) (f k : Nat) (ovf nf : Bool) (s : State) : State :=
  match runAt s n o.op.id with
  | none => s
  | some r =>
    let (d, a, b) := ((r.ftiles.find? fun x => x.1 == f).map (·.2)).getD (0, false, false)
    let x := (f, d + k, a || ovf, b || nf)
    let rest := r.ftiles.filter fun y => y.1 != f
    if d + k < frameElems then modRun n o.op.id (fun y => { y with ftiles := x :: rest }) s
    else
      let s := modRun n o.op.id (fun y => { y with ftiles := rest }) s
      let s := updCount n (if o.refused then 3 else 0) 1 s
      tileFlags n o 3 (updStream p 0) f x.2.2.1 x.2.2.2 s

/-- The value of an element of a plane of width `wd`. -/
def planeElem (wd : Nat) (b : List Byte) (i : Nat) : BitVec 32 :=
  if wd = 4 then BitVec.ofNat 32 (ofBytes ((b.drop (4 * i)).take 4)) else bf16At b i

/-- The width of a plane of a region; 0 where it is absent. -/
def Prm.wd (p : Prm) (pl : Nat) : Nat := ((p.planes.find? fun x => x.1 == pl).map (·.2)).getD 0

/-- W, M and V of element `i` of a segment; an absent plane reads as +0 (R290, R300). -/
def segElem (p : Prm) (g : USeg) (i : Nat) : BitVec 32 × BitVec 32 × BitVec 32 :=
  let at' (pl : Nat) : BitVec 32 := if p.wd pl = 0 then 0 else planeElem (p.wd pl) (g.plane pl) i
  let w := if p.wt = 1 then at' 0 ||| ((at' 1) >>> 16) else at' 0
  (w, at' 2, at' 3)

/-- Writes results into plane `pl` of the next buffer (R302). -/
def planeWrite (n : Nat) (o : RunOp) (p : Prm) (b pl q e0 : Nat) (d : List Byte) (s : State) : State :=
  mpWrite n (p.loc b pl q e0 (p.wd pl)) d (.updWr (BitVec.ofNat 5 n) o.op.id) s

/-- A plane's results as bytes: exact, split, or narrowed with the draws of R302. -/
def planeBytes (o : RunOp) (p : Prm) (pl f e0 : Nat) (x : List (BitVec 32)) : List Byte × FCnt :=
  if p.wd pl = 4 then (x.flatMap fun v => toBytes 4 v.toNat, {})
  else if p.wt = 1 ∧ pl = 0 then (x.flatMap fun v => toBytes 2 (v.toNat / 65536), {})
  else if p.wt = 1 ∧ pl = 1 then (x.flatMap fun v => toBytes 2 (v.toNat % 65536), {})
  else
    let a := drawAt o (updStream p (pl - 1)) f
    let cs := x.zipIdx.map fun (v, i) => narrow 0 v (drawBits a (e0 + i))
    (cs.flatMap fun c => toBytes 2 c.c, cs.foldl (fun a c => a.add c.cnt) {})

/-- Writes the results of a segment to buffer `b`, and gives the events of its narrowing writes (R159, R171, R194, R302). -/
def segWrite (n : Nat) (o : RunOp) (p : Prm) (b q f e0 : Nat) (w m v : List (BitVec 32)) (s : State) : FCnt × State :=
  p.planes.foldl (fun (a, s) x =>
    let src := if x.1 ≤ 1 then w else if x.1 = 2 then m else v
    let (d, c) := planeBytes o p x.1 f e0 src
    (a.add c, planeWrite n o p b x.1 q e0 d s)) ({}, s)

/-- Updates the elements of a segment whose state has come, after the catch-up of an embedding row (R300, R305), and notes `done` elements
of its frame. -/
def segUpdate (n : Nat) (o : RunOp) (p : Prm) (g : USeg) (next skipped done : Nat) (s : State) : State :=
  let q := localFrame (prmSeq s p) g.frame
  let ev := updEval s n o
  let (eta, t) := updRate s o
  let st := (List.range g.k).map (segElem p g)
  let cu := if skipped = 0 then none else some (catchup ev o.rule eta skipped)
  let rs := (g.grads.zip st).map fun (gr, (w, m, v)) =>
    match cu with
    | none => updElem ev o.rule eta t gr w m v
    | some (fm, fv, fw) =>
      let a := fm.bind fun y => mulL m y
      let b := fv.bind fun y => mulL v y
      let c := fw.bind fun y => mulL w y
      let r := updElem ev o.rule eta t gr c.v a.v b.v
      { r with ovf := r.ovf || a.ovf || b.ovf || c.ovf, nf := r.nf || a.nf || b.nf || c.nf }
  let s := arithCount n 2 (rs.filter (·.ovf)).length s
  let s := arithCount n 1 (rs.filter (·.nf)).length s
  let nfl := (rs.filter (·.floor)).length
  let s :=
    if nfl = 0 then s
    else
      let s := updCount n 2 nfl s
      let seen := match runAt s n o.op.id with | some x => x.divFloor | none => false
      if seen then s
      else opFault 0xE n o.op (pack [(0, p.k), (8, g.frame)]) (modRun n o.op.id (fun x => { x with divFloor := true }) s)
  let (c, s) := segWrite n o p next q g.frame g.e0 (rs.map (·.w)) (rs.map (·.m)) (rs.map (·.v)) s
  frameNote n o p g.frame done (rs.any (·.ovf) || c.sat != 0) (rs.any (·.nf) || c.nf) (fmtCount n c s)

/-- Copies a segment's planes to the next buffer unchanged: a frozen skip (R303). -/
def segCopy (n : Nat) (o : RunOp) (p : Prm) (g : USeg) (next : Nat) (s : State) : State :=
  let q := localFrame (prmSeq s p) g.frame
  let s := p.planes.foldl (fun s x => planeWrite n o p next x.1 q g.e0 (g.plane x.1) s) s
  frameNote n o p g.frame g.k false false s

/-- Works on the first segment whose reads and gradient have come. -/
def segGo (n : Nat) (o : RunOp) (s : State) : Option State :=
  let p := updPrm s o.op
  match o.usegs.find? fun g => g.fed && g.got.length == g.want && (!p.emb || g.issued || scratchRoom p o (g.piece p * p.elemSz)) with
  | none => none
  | some g =>
    let drop (s : State) : State :=
      modRun n o.op.id (fun r => { r with usegs := r.usegs.filter fun x => !(x.frame == g.frame && x.e0 == g.e0) }) s
    if !p.emb then
      let b := (s.step.step.toNat + 1) % 2
      some (if o.refused then segCopy n o p g b (drop s) else segUpdate n o p g b 0 g.k (drop s))
    else
      let e := o.step.toNat % 2 ^ 32
      let b := liveBuf e (g.stamp 0) (g.stamp 1)
      if !g.issued then some (segRead n o p g b s)
      else
        let q := localFrame (prmSeq s p) g.frame
        let k := g.piece p
        let last := decide (g.pos + k ≥ g.k)
        let x := { g with e0 := g.e0 + g.pos, k := k, grads := (g.grads.drop g.pos).take k }
        let skipped := e - g.stamp b
        let s := if skipped != 0 && g.pos == 0 then updCount n 1 1 s else s
        let s := segUpdate n o p x (1 - b) skipped (if last then 2 ^ p.rlog else 0) s
        if last then
          let a := p.loc (1 - b) 4 q (g.e0 / 2 ^ p.rlog) 4
          some (send { wrMsg (mpP n) (dpaOf (ilv s) n a) (toBytes 4 (e + 1)) 2 with oc := 2 }
            (some (.updWr (BitVec.ofNat 5 n) o.op.id)) (drop s))
        else
          let y := { g with pos := g.pos + k }
          some (segRead n o p y b (modSeg n o.op.id g.frame g.e0 (fun _ => y) s))

/-- Adds a segment to an update op. -/
def segPut (n : Nat) (o : RunOp) (g : USeg) (s : State) : State := modRun n o.op.id (fun r => { r with usegs := r.usegs ++ [g] }) s

/-- Takes a row of an embedding region that starts at element `e0` of region frame `f`: its stamps are asked for. A row whose gradient is
all zero is untouched (R305), and a skip reads nothing (R303). -/
def rowBegin (n : Nat) (o : RunOp) (f e0 : Nat) (gr : List (BitVec 32)) (s : State) : State :=
  let p := updPrm s o.op
  let gr' := gr.take p.rl
  if o.refused || gr'.all isZeroF then frameNote n o p f gr.length false false s
  else
    let g : USeg := { frame := f, e0 := e0, k := gr'.length, grads := gr', fed := true, want := 2 }
    let q := localFrame (prmSeq s p) f
    (List.range 2).foldl (fun s b =>
      mpRead n (p.loc b 4 q (e0 / 2 ^ p.rlog) 4) 4 (.updRd (BitVec.ofNat 5 n) o.op.id f e0 (4 + b)) s) (segPut n o g s)

/-- The region frame of an op's local frame `c` in churn `n` (R293). -/
def updFrame (s : State) (n : Nat) (o : RunOp) (c : Nat) : Nat := frame0 o.op + frameAt (opSeq s o.op) n c

/-- Asks for the state of the next segment, ahead of its gradient, while the update scratch of 256 KiB has room (R295). The rows of an
embedding region are read only once their gradient shows that they are touched (R305). -/
def updAhead (n : Nat) (o : RunOp) (s : State) : Option State :=
  let p := updPrm s o.op
  if p.emb || decide (o.aheadQ ≥ opFrames s n o.op) || !scratchRoom p o (segElems * p.elemSz) then none
  else
    let g : USeg := { frame := updFrame s n o o.aheadQ, e0 := o.aheadE, k := segElems }
    let s := modRun n o.op.id (fun r => { r with
      aheadE := if o.aheadE + segElems ≥ frameElems then 0 else o.aheadE + segElems
      aheadQ := if o.aheadE + segElems ≥ frameElems then r.aheadQ + 1 else r.aheadQ }) s
    some (segRead n o p g (s.step.step.toNat % 2) (segPut n o g s))

/-- Takes the next gradient elements, once they have arrived (R295): those of a segment whose state is held or asked for, or whole rows of
an embedding region. -/
def updTake (n : Nat) (o : RunOp) (s : State) : Option State :=
  let p := updPrm s o.op
  let x := ctxAt s o.op.desc.ctx
  let m := if p.emb then max 32 (2 ^ p.rlog) else segElems
  let b := storedLen x.etype m 0
  let f := updFrame s n o o.cq
  let e := o.tiles
  let room := if p.emb then o.usegs.length < 64 && scratchRoom p o (8 * (m / 2 ^ p.rlog)) else o.usegs.any fun g => g.frame == f && g.e0 == e && !g.fed
  if !room ∨ o.cq ≥ opFrames s n o.op ∨ o.inbuf.length < b then none
  else
    let (gr, c) := gradElems x.etype (gradDraw o f) e m (fun i => !p.emb || decide (i % 2 ^ p.rlog < p.rl)) (o.inbuf.take b)
    let k := 2 ^ p.rlog
    let s := modRun n o.op.id (fun r => { r with
      inbuf := r.inbuf.drop b
      tiles := if e + m ≥ frameElems then 0 else e + m
      cq := if e + m ≥ frameElems then r.cq + 1 else r.cq }) s
    let s := if o.refused then s else frameNote n o p f 0 (c.sat != 0) c.nf (fmtCount n c s)
    some (if p.emb then (List.range (m / k)).foldl (fun s i => rowBegin n o f (e + i * k) ((gr.drop (i * k)).take k) s) s
      else modSeg n o.op.id f e (fun g => { g with grads := gr, fed := true }) s)

/-- One quantum of an update op. The update engine works on a churn's oldest update op alone: its scratch is one, and a frame that two ops
update holds the later one's result (R295; log entry 98). -/
def updGo (n : Nat) (o : RunOp) (s : State) : Option State :=
  if ((churnAt s n).run.find? fun x => x.op.kind == .upd).map (·.op.id) != some o.op.id then none
  else match segGo n o s with
  | some s => some s
  | none =>
    match updAhead n o s with
    | some s => some s
    | none => updTake n o s

/-- Whether an update op has done all its work in churn `n` (R296). -/
def updDone (s : State) (n : Nat) (o : RunOp) : Bool :=
  o.started && o.cq == opFrames s n o.op && o.usegs.isEmpty
  && !owed s fun w => match w with | .updWr m i => m.toNat == n && i == o.op.id | _ => false

/-- UPDATE_OP_COMPLETE's effect. -/
def updComplete (n : Nat) (o : RunOp) (s : State) : State :=
  match partDone n o.op.id (opLeave n o s) with
  | (some t, s) => inSignal n t.op s
  | (none, s) => s

/-! ## Schedules -/

/-- The rates of every enabled schedule, computed at epbeg (R306); one the manual does not state is free (log entry 13).
A schedule whose parameters are not finite raises no fault of its own. -/
def schedAll (s : State) : State :=
  (List.range 8).foldl (fun s k =>
    let c := rd s (.schedCfg k)
    if !bit c 63 then s
    else
      let (v, s) := match schedEta c (rd s (.schedVal k)) (rd s (.schedRf k)) (rd s (.schedCnt k)).toNat with
        | some v => (v, s)
        | none => (Config.freeF32 s.freeCtr, tickFree s)
      { s with step := { s.step with lr := s.step.lr.set k v } }) s

end Sys2Proof.Machine
end

