-- ==== Sys2Proof/Machine/Churn.lean ====
section
/-! DEFINITION. The churns' own commands: ops enter their queue, are dispatched, start, go on and complete (R15, R22, R149,
R186, R207, R261, R356). -/

namespace Sys2Proof.Machine

/-! ## Going on -/

/-- A cause of R356 for a churn that is not ACTIVE: its wake begins. -/
def wake (n : Nat) (s : State) : State :=
  modChurn n (fun c => if c.pwr == .active then c else { c with waking := true, sleepy := false }) s

/-- One quantum of a running op of churn `n`. -/
def opGo (n : Nat) (s : State) (o : RunOp) : Option State :=
  match o.op.kind with
  | .reenc => reencGo n o s
  | .sin => if o.started then sinGo n o s else none
  | .sout => if o.started then soutGo n o s else none
  | .cop => if o.started then copGo n o s else none
  | .upd => if o.started then updGo n o s else none

/-- The first quantum that some running op of churn `n` can do. -/
def churnQuantum (n : Nat) (s : State) : Option State := (churnAt s n).run.findSome? (opGo n s)

/-- Quanta of churn `n` until none can be done, at most `k`. -/
def churnLoop (n : Nat) : Nat → State → State
  | 0, s => s
  | k + 1, s => match churnQuantum n s with | none => s | some s' => churnLoop n k s'

/-- The units of churn `n` do what they can (only an ACTIVE churn's act). -/
def churnGo (n : Nat) (s : State) : State :=
  if (churnAt s n).run.isEmpty || (churnAt s n).pwr != .active then s else churnLoop n 65536 s

/-- The units of every churn do what they can. -/
def churnsGo (s : State) : State := allChurns churnGo s

/-! ## The op queue -/

/-- CHURN_OP_ARRIVE: the hub's oldest op on its way enters the queue and takes its generation reference (R149, R356). -/
def arrive (n : Nat) (s : State) : State :=
  let c := churnAt s n
  match c.coming with
  | [] => s
  | o :: r =>
    let g := BitVec.ofNat 4 o.desc.cbgen
    let want := o.kind == .sin && o.lsl
    let ok := want && (vget {} c.gens g.toNat).st == .live && !genBarred s n g.toNat
    let c := if ok then refGen g true c else c
    let o := { o with gen := if ok then some g else none, noGen := want && !ok }
    wake n (setChurn s n { c with coming := r, queue := c.queue ++ [o] })

/-- CHURN_OP_ARRIVE, R149. -/
def execChurnOpArrive (n : BitVec 5) (s : State) : Out := inner (arrive n.toNat) s

/-- Whether every earlier op an op depends on through the vector slots has completed (R186): a running op reads the slots of the
chain it copied, the op at the queue's head those of the chain it would copy now. -/
def slotsFree (s : State) (n : Nat) (o : ChurnOp) : Bool :=
  (churnAt s n).run.all fun x =>
    !(isLdvec x.op && (slotsRead (chainWords s o).1).contains (ldvecSlot x.op).1)
    && !(isLdvec o && (slotsRead x.steps).contains (ldvecSlot o).1)

/-- Whether the op at a queue's head can be dispatched: its churn works, and a stream op finds stage buffer, an open
chunk and its slots (R56, R186, R261). -/
def canDispatch (s : State) (n : Nat) (o : ChurnOp) : Bool :=
  let c := churnAt s n
  c.pwr == .active && slotsFree s n o
  && (o.kind == .upd || decide ((c.run.filter isStreamOp).length < 6))
  && (o.kind != .sin || decide (c.opens.length < 64))

/-- Whether an op evaluates functions (R207). -/
def evaluates (s : State) (o : ChurnOp) : Bool :=
  o.kind == .upd || chainUsesF (stepsOf (chainWords s o).1)

/-- Whether an op is the cop op with code `k` (R187). -/
def isCop (k : Nat) (o : ChurnOp) : Bool := o.kind == .cop && fld o.ga 7 0 == k

/-- An op as it leaves the queue: it keeps what it samples at dispatch, the values of the registers that configure it among them, so
that no later write reaches it (R15, R181, R191, R207, R212, R256, R298; log entry 70). -/
def sampled (s : State) (n : Nat) (o : ChurnOp) : RunOp :=
  { op := o, aborted := taskAborted s o.id, barrier := barrierMode s, banks := (churnAt s n).active, usesF := evaluates s o,
    compat := bit (rd s .sfuCfg) 0, key := rd s .drawKey, steps := (chainWords s o).1, param := (chainWords s o).2,
    rule := if o.kind = .upd then (List.range 8).map fun w => rd s (.updRule (fld o.ga 5 0) w) else [] }

/-- CHURN_OP_DISPATCH: the op at the queue's head leaves it, and the hub gets its credit back (R15, R22). A cop op of a reserved code
is refused here (R100, R187). -/
def dispatch (n : Nat) (s : State) : State :=
  let c := churnAt s n
  match c.queue with
  | [] => s
  | o :: r =>
    if !canDispatch s n o then s
    else
      let x := sampled s n o
      let s := setChurn s n { c with queue := r, run := c.run ++ [x], credit := c.credit + 1 }
      if o.kind == .cop && !(isCop 1 o || isCop 2 o || isCop 3 o) then copStart n x s else s

/-- CHURN_OP_DISPATCH, R15. -/
def execChurnOpDispatch (n : BitVec 5) (s : State) : Out := inner (dispatch n.toNat) s

/-! ## Starts -/

/-- The dispatched op `id` of churn `n` that may start now, if it is of the kind meant. -/
def startable (s : State) (n id : Nat) (p : ChurnOp → Bool) : Option RunOp :=
  match runAt s n id with
  | none => none
  | some o =>
    if (churnAt s n).pwr == .active && p o.op && !o.started && !o.aborted && firstOn (churnAt s n) o then some o else none

/-- Starts a dispatched op, and lets its churn go on. -/
def startOp (n id : Nat) (p : ChurnOp → Bool) (f : Nat → RunOp → State → State) (s : State) : State :=
  match startable s n id p with
  | none => s
  | some o => churnGo n (f n o s)

/-- STREAM_IN_OP, R156. -/
def execStreamInOp (n : BitVec 5) (id : Nat) (s : State) : Out :=
  inner (startOp n.toNat id (fun o => o.kind == .sin) sinStart) s
/-- STREAM_OUT_OP, R157. -/
def execStreamOutOp (n : BitVec 5) (id : Nat) (s : State) : Out :=
  inner (startOp n.toNat id (fun o => o.kind == .sout) soutStart) s
/-- LDVEC, R187. -/
def execLdvec (n : BitVec 5) (id : Nat) (s : State) : Out := inner (startOp n.toNat id (isCop 1) copStart) s
/-- ROWDOT, R188. -/
def execRowdot (n : BitVec 5) (id : Nat) (s : State) : Out := inner (startOp n.toNat id (isCop 2) copStart) s
/-- ROWSTAT, R187. -/
def execRowstat (n : BitVec 5) (id : Nat) (s : State) : Out := inner (startOp n.toNat id (isCop 3) copStart) s
/-- UPDATE_OP, R295. -/
def execUpdateOp (n : BitVec 5) (id : Nat) (s : State) : Out :=
  inner (startOp n.toNat id (fun o => o.kind == .upd) updStart) s

/-! ## Deliveries and row traffic -/

/-- TILE_DELIVER, R250. -/
def execTileDeliver (n : BitVec 5) (id : Nat) (s : State) : Out :=
  inner (fun s =>
    match runAt s n.toNat id with
    | none => s
    | some o =>
      if o.op.kind == .sout && o.started && (churnAt s n.toNat).pwr == .active then churnGo n.toNat (tileOut n.toNat o s) else s) s

/-- ROW_PARTIAL, R177. -/
def execRowPartial (n : BitVec 5) (id row seg : Nat) (s : State) : Out := inner (rowPartialIn n.toNat id row seg) s

/-- ROW_STATS_ARRIVE, R177. -/
def execRowStatsArrive (n : BitVec 5) (id row : Nat) (s : State) : Out :=
  inner (fun s => churnGo n.toNat (rowStatsIn n.toNat id row s)) s

/-! ## Completions -/

/-- The completion of op `id` in churn `n`, once all its work there is done. -/
def endOp (n id : Nat) (k : OpKind) (p : State → Nat → RunOp → Bool) (f : Nat → RunOp → State → State) (s : State) : State :=
  match runAt s n id with
  | none => s
  | some o => if o.op.kind == k && p s n o then churnGo n (f n o s) else s

/-- STREAM_IN_OP_COMPLETE, R247. -/
def execStreamInOpComplete (n : BitVec 5) (id : Nat) (s : State) : Out := inner (endOp n.toNat id .sin sinDone sinComplete) s
/-- STREAM_OUT_OP_COMPLETE, R99. -/
def execStreamOutOpComplete (n : BitVec 5) (id : Nat) (s : State) : Out :=
  inner (endOp n.toNat id .sout soutDone soutComplete) s
/-- COP_OP_COMPLETE, R187. -/
def execCopOpComplete (n : BitVec 5) (id : Nat) (s : State) : Out := inner (endOp n.toNat id .cop copDone copComplete) s
/-- UPDATE_OP_COMPLETE, R296. -/
def execUpdateOpComplete (n : BitVec 5) (id : Nat) (s : State) : Out := inner (endOp n.toNat id .upd updDone updComplete) s

/-- REENCODE_COMPLETE, R76. -/
def execReencodeComplete (e : BitVec 17) (s : State) : Out :=
  inner (fun s => match reencOf s e.toNat with | some o => if reencDone s o then reencEnd o s else s | none => s) s

/-- CHUNK_SWEEP, R67: what waited for a chunk goes on. -/
def execChunkSweep (n : BitVec 5) (s : State) : Out :=
  inner (fun s => if (churnAt s n.toNat).chunks.any fun x => x.2.marked then churnGo n.toNat (sweepChunks n.toNat s) else s) s

/-! ## Deadlines -/

/-- Row `r` of an index-driven op's delivery or the first after it that lies in churn `n`, `k` rows at most being tried. -/
def rowHere (s : State) (n : Nat) (o : ChurnOp) : Nat → Nat → Option Nat
  | 0, _ => none
  | k + 1, r => if holder s o (routedRow s o r * o.desc.row / frameElems) == n then some r else rowHere s n o k (r + 1)

/-- The unit an op begins next in churn `n`, if its part there has one more (R252). -/
def unitAfter (s : State) (n : Nat) (o : RunOp) : Option FUnit :=
  if isIdx s o.op then
    (rowHere s n o.op (unitCount s n o.op - o.uRd) o.uRd).map fun r => { u := r, q := 0, g0 := routedRow s o.op r * o.op.desc.row }
  else if o.uRd < opFrames s n o.op then some { u := o.uRd, q := o.uRd, g0 := frameAt (opSeq s o.op) n o.uRd * frameElems }
  else none

/-- The oldest unit of an op in churn `n` that is not delivered, if there is one. -/
def nextUnit (s : State) (n : Nat) (o : RunOp) : Option FUnit := match o.units with | u :: _ => some u | [] => unitAfter s n o

/-- Task `t`'s op as churn `n` runs it, or would begin it. -/
def partOp (s : State) (t : Task) (n : Nat) : RunOp := (runAt s n t.id).getD { op := t.op }

/-- The next tile of task `t` in churn `n`; none where its part there has no more. -/
def partTile (s : State) (t : Task) (n : Nat) : Option Nat :=
  (nextUnit s n (partOp s t n)).map (unitTile s (partOp s t n))

/-- Whether a task delivers in tiles. -/
def isTiled (s : State) (t : Task) : Bool :=
  t.op.kind == .sout && (ctxAt s t.op.desc.ctx).kind == 1 && (ctxAt s t.op.desc.ctx).tile != 0

/-- The lowest unfinished tile of task `t` in churn `n` or, where it has no tiles, its lowest unfinished frame (R260); none where its part
there has none. -/
def partPos (s : State) (t : Task) (n : Nat) : Option Nat :=
  if isTiled s t then partTile s t n
  else
    let o := partOp s t n
    match t.op.kind with
    | .sout => (nextUnit s n o).map (outTile s t.op)
    | k =>
      let q := if k = .sin then o.blk / fmtK o.op.fmt.toNat o.op.rank else o.cq
      if q < opFrames s n t.op then some (frameAt (opSeq s t.op) n q) else none

/-- The churn of a list with the lowest position, the first one where several have it, and that position. -/
def lowestOf (f : Nat → Option Nat) : List Nat → Option (Nat × Nat)
  | [] => none
  | n :: r =>
    match f n, lowestOf f r with
    | some p, some (m, q) => if p ≤ q then some (n, p) else some (m, q)
    | some p, none => some (n, p)
    | none, y => y

/-- The churn that holds a task's lowest unfinished tile or frame, the lowest one where several do, and PACE_MISS.POS (R260). Where every
part has delivered all, the lowest churn that has not completed is named, and position 0 (DESIGN CHOICE, log entry 97). -/
def lowestPart (s : State) (t : Task) : Nat × Nat :=
  match lowestOf (partPos s t) (maskList t.left) with
  | some (n, p) => (n, if isTiled s t then p else 0)
  | none => ((maskList t.left).headD 0, 0)

/-- DEADLINE_MISS's effect on an unfinished op that has a deadline (R259, R260). -/
def missDeadline (id : Nat) (s : State) : State :=
  match s.tasks.find? fun t => t.id == id with
  | none => s
  | some t =>
    if s.sys.mode != 2 || t.deadline = 0 || t.base.isNone || t.missed then s
    else
      let (n, pos) := lowestPart s t
      let w := pack [(50, t.op.desc.ctx), (45, n), (0, pos)]
      let s := { s with
        tasks := lmod (fun x => x.id == id) (fun x => { x with missed := true }) s.tasks
        paceEvt := satAdd s.paceEvt 1
        paceMiss := w }
      raise 9 (recWord (opEntry t.op) (opCode t.op) n 1) w s

/-- DEADLINE_MISS, R260. -/
def execDeadlineMiss (id : Nat) (s : State) : Out := inner (missDeadline id) s

end Sys2Proof.Machine
end

