-- ==== Sys2Proof/Machine/Aes.lean ====
section
/-! DEFINITION. AES-256 (FIPS 197) in GCM (SP 800-38D), as the inline cipher uses it (R335, R342). -/

namespace Sys2Proof.Machine

/-- The S-box of FIPS 197: byte i of this number is its value at i. -/
def sboxNum : Nat :=
  0x16bb54b00f2d99416842e6bf0d89a18cdf2855cee9871e9b948ed9691198f8e19e1dc186b95735610ef6034866b53e708a8bbd4b1f74dde8c6b4a61c2e2578ba08ae7a65eaf4566ca94ed58d6d37c8e779e4959162acd3c25c2406490a3a32e0db0b5ede14b8ee4688902a22dc4f816073195d643d7ea7c41744975fec130ccdd2f3ff1021dab6bcf5389d928f40a351a89f3c507f02f94585334d43fbaaefd0cf584c4a39becb6a5bb1fc20ed00d153842fe329b3d63b52a05a6e1b1a2c830975b227ebe28012079a059618c323c7041531d871f1e5a534ccf73f362693fdb7c072a49cafa2d4adf04759fa7dc982ca76abd7fe2b670130c56f6bf27b777c63

/-- SubBytes on one byte. -/
def sbox (b : Byte) : Byte := BitVec.ofNat 8 (sboxNum >>> (8 * b.toNat))

/-- Multiplication by x in GF(2^8). -/
def xtime (b : Byte) : Byte := if b.getLsbD 7 then (b <<< 1) ^^^ 0x1B#8 else b <<< 1

/-- Bytes combined with exclusive or. -/
def xorBytes : List Byte → List Byte → List Byte
  | a :: as, b :: bs => (a ^^^ b) :: xorBytes as bs
  | _, _ => []

/-- The key schedule: from the eight latest words, newest last, the next eight; `rc` is the round constant. -/
def keyRound (rc : Byte) (w : List (List Byte)) : List (List Byte) :=
  let sub (x : List Byte) : List Byte := x.map sbox
  let rot (x : List Byte) : List Byte := x.drop 1 ++ x.take 1
  let n0 := xorBytes (w.getD 0 []) (xorBytes (sub (rot (w.getD 7 []))) [rc, 0, 0, 0])
  let n1 := xorBytes (w.getD 1 []) n0
  let n2 := xorBytes (w.getD 2 []) n1
  let n3 := xorBytes (w.getD 3 []) n2
  let n4 := xorBytes (w.getD 4 []) (sub n3)
  let n5 := xorBytes (w.getD 5 []) n4
  let n6 := xorBytes (w.getD 6 []) n5
  [n0, n1, n2, n3, n4, n5, n6, xorBytes (w.getD 7 []) n6]

/-- `n` further groups of eight key words. -/
def keyExpand : Nat → Byte → List (List Byte) → List (List Byte)
  | 0, _, w => w
  | n + 1, rc, w => w ++ keyExpand n (xtime rc) (keyRound rc w)

/-- Cuts bytes into `n` pieces of `k`. -/
def pieces (k : Nat) : Nat → List Byte → List (List Byte)
  | 0, _ => []
  | n + 1, l => l.take k :: pieces k n (l.drop k)

/-- The fifteen round keys of a 32-byte key. -/
def roundKeys (key : List Byte) : List (List Byte) :=
  pieces 16 15 (keyExpand 7 1 (pieces 4 8 key)).flatten

/-- ShiftRows on a state in column order. -/
def shiftRows (s : List Byte) : List Byte := (List.range 16).map fun i => s.getD ((i + 4 * (i % 4)) % 16) 0

/-- MixColumns on one column. -/
def mixCol (c : List Byte) : List Byte :=
  let a (i : Nat) : Byte := c.getD (i % 4) 0
  (List.range 4).map fun i => xtime (a i) ^^^ xtime (a (i + 1)) ^^^ a (i + 1) ^^^ a (i + 2) ^^^ a (i + 3)

/-- MixColumns. -/
def mixCols (s : List Byte) : List Byte := (pieces 4 4 s).flatMap mixCol

/-- The rounds after the first key addition; the last one has no MixColumns. -/
def aesRounds : List (List Byte) → List Byte → List Byte
  | [], s => s
  | [k], s => xorBytes (shiftRows (s.map sbox)) k
  | k :: ks, s => aesRounds ks (xorBytes (mixCols (shiftRows (s.map sbox))) k)

/-- AES-256 on one block. -/
def aesBlock (ks : List (List Byte)) (b : List Byte) : List Byte :=
  match ks with
  | [] => b
  | k :: r => aesRounds r (xorBytes b k)

/-- The number of a block, first byte most significant. -/
def beNat (l : List Byte) : Nat := l.foldl (fun a b => a * 256 + b.toNat) 0

/-- The bytes of a number, most significant first. -/
def beBytes (n v : Nat) : List Byte := (toBytes n v).reverse

/-- The product of GCM's field, the bits of `x` from bit `i` down. -/
def gfMul (x : BitVec 128) : Nat → BitVec 128 → BitVec 128 → BitVec 128
  | 0, _, z => z
  | i + 1, v, z =>
    gfMul x i (if v.getLsbD 0 then (v >>> 1) ^^^ (0xE1#128 <<< 120) else v >>> 1) (if x.getLsbD i then z ^^^ v else z)

/-- GHASH over whole blocks. -/
def ghash (h : BitVec 128) (bs : List (List Byte)) : BitVec 128 :=
  bs.foldl (fun y b => gfMul (y ^^^ BitVec.ofNat 128 (beNat b)) 128 h 0) 0

/-- Counter mode from counter `c` on, over `n` blocks. -/
def gcmCtr (ks : List (List Byte)) (iv : List Byte) : Nat → Nat → List Byte → List Byte
  | 0, _, _ => []
  | n + 1, c, d => xorBytes (d.take 16) (aesBlock ks (iv ++ beBytes 4 c)) ++ gcmCtr ks iv n (c + 1) (d.drop 16)

/-- The tag of a ciphertext whose length is a multiple of 16, with 16 bytes of AAD. -/
def gcmTag (ks : List (List Byte)) (iv aad ct : List Byte) : List Byte :=
  let h := BitVec.ofNat 128 (beNat (aesBlock ks (zeros 16)))
  let n := ct.length / 16
  let s := ghash h (aad :: pieces 16 n ct ++ [beBytes 8 128 ++ beBytes 8 (8 * ct.length)])
  xorBytes (beBytes 16 s.toNat) (aesBlock ks (iv ++ [0, 0, 0, 1]))

/-- Seals: ciphertext and tag. -/
def gcmSeal (key iv aad pt : List Byte) : List Byte × List Byte :=
  let ks := roundKeys key
  let ct := gcmCtr ks iv (cdiv pt.length 16) 2 pt
  (ct, gcmTag ks iv aad ct)

/-- Opens: the plaintext, or nothing where the tag does not match. -/
def gcmOpen (key iv aad ct tag : List Byte) : Option (List Byte) :=
  let ks := roundKeys key
  if gcmTag ks iv aad ct = tag then some (gcmCtr ks iv (cdiv ct.length 16) 2 ct) else none

end Sys2Proof.Machine
end

