-- ==== Sys2Proof/Machine/Xfer.lean ====
section
/-! DEFINITION. The engine of every transfer (R217 to R232): requests at their boundaries, the funnel, the byte swap, lists,
the inline cipher (R334 to R340), read-backs, and the position at which a failed transfer stands. -/

namespace Sys2Proof.Machine

/-! ## Transfers by number -/

/-- The number of a snapshot's transfer, and of a restore's. -/
abbrev snapNo : Nat := 64
/-- The number of a restore's transfer. -/
abbrev restNo : Nat := 65

/-- The channel with a number. -/
def chanOf (c : Nat) : Option ChanId :=
  if c < 64 then some (.hub (BitVec.ofNat 6 c))
  else if 100 ≤ c ∧ c < 356 then some (.pail (BitVec.ofNat 5 ((c - 100) / 8)) (BitVec.ofNat 3 ((c - 100) % 8)))
  else none

/-- The progress of transfer `c`. -/
def xferAt (s : State) (c : Nat) : Xfer :=
  match chanOf c with
  | some i => (chanAt s i).x
  | none => s.snap.x

/-- Changes the progress of transfer `c`. -/
def modX (c : Nat) (f : Xfer → Xfer) (s : State) : State :=
  match chanOf c with
  | some i => modChan i (fun h => { h with x := f h.x }) s
  | none => { s with snap := { s.snap with x := f s.snap.x } }

/-- The descriptor transfer `c` works on; a snapshot and a restore read and write host memory in class RLX. -/
def dscAt (s : State) (c : Nat) : Dsc := match chanOf c with | some i => (chanAt s i).act | none => {}

/-- OC of a descriptor. -/
def Dsc.oc (d : Dsc) : Nat := fld d.cfg 41 40
/-- NS. -/
def Dsc.ns (d : Dsc) : Bool := bit d.cfg 39
/-- WNP. -/
def Dsc.wnp (d : Dsc) : Bool := bit d.cfg 38
/-- CHIP. -/
def Dsc.chip (d : Dsc) : BitVec 17 := d.cfg.extractLsb' 47 17
/-- BAR. -/
def Dsc.bar (d : Dsc) : Bool := bit d.cfg 31
/-- SG. -/
def Dsc.sg (d : Dsc) : Nat := fld d.cfg 33 32
/-- LEN. -/
def Dsc.bytes (d : Dsc) : Nat := fld d.len 39 0

/-- Whether reads of transfer `c` may be issued: it is ACTIVE, or a snapshot or restore is in progress. -/
def reading (s : State) (c : Nat) : Bool :=
  match chanOf c with
  | some i => (chanAt s i).st == .active
  | none => s.snap.busy || s.snap.rbusy

/-- Whether transfer `c` works at all. -/
def working (s : State) (c : Nat) : Bool :=
  match chanOf c with
  | some i => (chanAt s i).st == .active || (chanAt s i).st == .aborting
  | none => s.snap.busy || s.snap.rbusy

/-- Whether an owner belongs to transfer `c`. -/
def ownerOf (c : Nat) : Owner → Bool
  | .chanRd d _ | .chanWr d _ | .chanBar d | .chanSg d => d == c
  | _ => false

/-- Whether transfer `c` has requests outstanding, or posted ones that are not issued. -/
def xferBusy (s : State) (c : Nat) : Bool := owed s (ownerOf c) || s.txq.any fun x => x.src == some c

/-- Whether transfer `c` has reads outstanding. -/
def readsOut (s : State) (c : Nat) : Bool :=
  owed s fun o => match o with | .chanRd d _ | .chanSg d => d == c | _ => false

/-! ## Failures -/

/-- The record of a fault of transfer `c` (R376). -/
def xferRec (s : State) (c : Nat) : Word :=
  match chanOf c with
  | some (.pail n _) => recWord none 0xF7 n.toNat 2
  | some (.hub k) =>
    match (chanAt s (.hub k)).job with
    | .spill e _ => recWord (some e) 0xF4 0 1
    | .recall e => recWord (some e) 0xF5 0 1
    | _ => recWord none 0xF7 0 3
  | none => recWord none (if s.snap.rbusy then 0xF9 else 0xF8) 0 5

/-- The fault of a failed request with STAT `e` at a port (R32, R230). -/
def statFault (p : PortId) (e : Nat) : Nat :=
  match e with
  | 4 => 4
  | 5 => 0x13
  | _ => (busFault p).getD 1

/-- STAT as an error code: reserved values act as TGT_ERR (R32). -/
def statErr (e : Nat) : Nat := if e ≥ 6 then 2 else e

/-- Whether the separator started a channel with hmv. -/
def byHmv (s : State) (i : ChanId) : Bool := match (chanAt s i).job with | .hmv _ => true | _ => false

/-- A fault of a channel that hmv started shows in ASTAT (R108). -/
def noteFault (i : ChanId) (s : State) : State := if byHmv s i then setAstat 1 s else s

/-- Stops transfer `c` after a failure: no more is issued, and the first failure is latched (R230). -/
def xferStop (c err : Nat) (dir : Bool) (addr : Nat) (s : State) : State :=
  let first := !(xferAt s c).failing
  let s := modX c (fun x => { x with failing := true }) s
  match chanOf c with
  | some i =>
    if first then
      noteFault i (modChan i (fun h => { h with err := BitVec.ofNat 4 err, dir := dir, erraddr := BitVec.ofNat 64 addr }) s)
    else s
  | none => s

/-- A failure at `addr` that raises fault `code` with `info`; a restore raises SNAP_ABORT in its place (R331). -/
def xferFail (c err code : Nat) (dir : Bool) (addr info : Nat) (s : State) : State :=
  xferStop c err dir addr (if (chanOf c).isNone && s.snap.rbusy then s else raise code (xferRec s c) (BitVec.ofNat 64 info) s)

/-- FLT_INFO of the fault of a failed request: TAG_FAULT carries header bits [127:64] of the response, every other the address (R375). -/
def rspInfo (f : Flight) (code stat : Nat) (data : List Byte) (addr : Nat) : Nat :=
  if code = 0x13 then rspHi f.tag (BitVec.ofNat 4 stat) data else addr

/-- The address a transfer reports for a request at a port, in its kind's space (R230). -/
def kindAddr (c : Nat) (p : PortId) (addr : Nat) : Nat :=
  match p, chanOf c with
  | .mp _, some (.pail _ _) => localOf addr
  | _, _ => addr

/-- A list error: ILLEGAL_OP, and SGIDX names the element (R221). -/
def listFail (c : Nat) (addr idx : Nat) (s : State) : State :=
  let s := xferStop c 7 false addr (raise 0x14 (xferRec s c) 0 s)
  match chanOf c with
  | some i => modChan i (fun h => { h with sgidx := BitVec.ofNat 16 idx }) s
  | none => s

/-- A cipher failure: CRYPT_ERR and CRYPT_EVT (R340). -/
def cryptNote (kind slot addr : Nat) (s : State) : State :=
  let w := pack [(60, kind), (57, slot), (0, addr / 4096 % 2 ^ 52)]
  let s := { s with cryptErr := w }
  if kind = 2 ∨ kind = 3 then { s with cryptEvt := satFld s.cryptEvt 63 32 1 }
  else { s with cryptEvt := satFld s.cryptEvt 31 0 1 }

/-- The record of a fault of the cipher. -/
def cryptRec : Word := recWord none 0xFF 0 12

/-- A cipher failure of transfer `c` (R340): KEY_MISSING carries CRYPT_ERR, a tag mismatch the unit's address. -/
def cryptFail (c kind code slot addr : Nat) (s : State) : State :=
  let s := cryptNote kind slot addr s
  let info := if code = 0x12 then s.cryptErr else BitVec.ofNat 64 addr
  xferStop c 8 (kind = 6) addr (raise code cryptRec info s)

/-! ## The cipher -/

/-- A key slot. -/
def keyAt (s : State) (k : Nat) : Key := vget {} s.keys k

/-- The 32 bytes of a key. -/
def keyBytes (k : Key) : List Byte := k.w.toList.flatMap wordBytes

/-- The associated data of a unit (R337). -/
def aadOf (addr slot : Nat) (peer : Bool) (chip : Nat) : List Byte :=
  wordsBytes [BitVec.ofNat 64 addr, pack [(4, chip), (3, b1 peer), (0, slot)]]

/-- The nonce of the next unit sealed (R336). -/
def nonceOf (s : State) : List Byte :=
  toBytes 12 ((chipId s).toNat * 2 ^ 79 + s.nv.boot.toNat * 2 ^ 56 + s.nctr.toNat)

/-- Whether no further nonce can be issued (R336). -/
def nonceEnd (s : State) : Bool := s.nctr.toNat == 2 ^ 56 - 1 || s.nv.boot.toNat == 2 ^ 23 - 1

/-- Seals a unit with a slot: nonce, ciphertext and tag (R335, R336). -/
def sealUnit (slot : Nat) (aad pt : List Byte) (s : State) : List Byte × List Byte × List Byte × State :=
  let iv := nonceOf s
  let (ct, tag) := gcmSeal (keyBytes (keyAt s slot)) iv aad pt
  (iv, ct, tag, { s with nctr := s.nctr + 1 })

/-- A tag entry (R335). -/
def tagEntry (iv tag : List Byte) : List Byte := iv ++ zeros 4 ++ tag

/-- The address of the seal window for a unit (R338). -/
def sealWin (slot addr : Nat) : Nat := 0xE * 2 ^ 44 + slot * 2 ^ 36 + addr / 4096 % 2 ^ 36

/-- The tag unit of group `g`, from the entries of all units sealed (R335). -/
def groupTags (g : Nat) (tags : List Byte) : List Byte := padTo 4096 ((tags.drop (4096 * g)).take 4096)

/-- A seal record (R338). -/
def sealRec (slot addr : Nat) (iv tag : List Byte) : List Byte :=
  toBytes 8 (sealWin slot addr) ++ iv ++ zeros 4 ++ tag ++ zeros 24

/-- The physical unit of logical unit `j` of a covered range (R335). -/
def physUnit (j : Nat) : Nat := j + j / 128

/-! ## Pieces and requests -/

/-- Byte `v` of the stream in which a covered range of `u` units at `base` is read: each group's tag unit before its data. -/
def covAddr (base u v : Nat) : Nat :=
  let g := v / 528384
  let w := v % 528384
  if w < 4096 then base + (129 * g + min 128 (u - 128 * g)) * 4096 + w else base + 129 * g * 4096 + (w - 4096)

/-- The place in that stream of unit `j`. -/
def covPos (j : Nat) : Nat := j / 128 * 528384 + 4096 + j % 128 * 4096

/-- The request boundary of a kind (R217). -/
def boundary : Space → Nat
  | .loc _ | .dpa | .peer | .sealed => 512
  | .hba | .csp | .cov => 256
  | _ => 4096

/-- The address and length of the first request of a piece (R222); `src`: the piece is read. -/
def pieceReq (x : Xfer) (src : Bool) (p : Piece) : Nat × Nat :=
  match p.sp with
  | .cov =>
    let a := covAddr p.addr x.uend p.off
    (a, min p.len (256 - a % 256))
  | .sealed =>
    let u := p.addr + p.off / 4160 * 4096
    let w := p.off % 4160
    let d := if src then w - 64 else w
    if (src && w < 64) || (!src && w ≥ 4096) then (sealWin x.slot.toNat u, 64)
    else (u + d, min p.len (512 - (u + d) % 512))
  | _ => (p.addr, min p.len (boundary p.sp - p.addr % boundary p.sp))

/-- A piece without its first `k` bytes. -/
def Piece.adv (p : Piece) (k : Nat) : Piece :=
  match p.sp with
  | .sealed | .cov => { p with off := p.off + k, len := p.len - k }
  | _ => { p with addr := p.addr + k, len := p.len - k, lit := p.lit.drop k }

/-- The bounced form of a host address (R285). -/
def bounceOf (s : State) (a : Nat) : Nat :=
  match (List.range 8).find? fun k =>
    let b := (rd s (.p2pBase k)).toNat
    (vget {} s.regions k).bounce && bit (rd s (.p2pCtl k)) 0
      && decide (b ≤ a) && decide (a < b + fld (rd s (.p2pCtl k)) 47 12 * 4096) with
  | some k => (rd s (.p2pBnc k)).toNat + (a - (rd s (.p2pBase k)).toNat)
  | none => a

/-- The port a request goes to, and its address there. -/
def portOf (s : State) (sp : Space) (a : Nat) : PortId × Nat :=
  match sp with
  | .loc n => (.mp n, dpaOf (ilv s) n.toNat a)
  | .dpa => (mpP (stackOf (ilv s) a), a)
  | .fab n => (.fp n, a)
  | .hba | .cov => (.hbp, bounceOf s a)
  | _ => (.pp, a)

/-- A pail engine holds at most 512 MP tags (R223). -/
def tagRoom (s : State) (c : Nat) : Bool :=
  match chanOf c with
  | some (.pail _ _) => decide ((s.inflight.filter fun f => ownerOf c f.owner).length < 512)
  | _ => true

/-- Whether transfer `c` can issue a message now: on MPn and FPn_OUT its request joins the queue unless one of its own waits there
(R236, R237); elsewhere it is driven at once. -/
def sendable (s : State) (c : Nat) (m : Msg) (o : Option Owner) : Bool :=
  match m.port with
  | .mp _ => !(s.txq.any fun x => x.m.port == m.port && (match x.owner with | some w => ownerOf c w | none => false)) && tagRoom s c
  | .fp _ => !(s.txq.any fun x => x.m.port == m.port && x.src == some c)
  | _ => !(s.txq.any fun x => x.m.port == m.port) && canDrive s m o

/-- Issues a message of transfer `c`: a churn that sleeps is woken first (R356), a link that is down stops the transfer
(R231), and without credit or tag nothing is issued yet. `f` is what follows once the message is issued. -/
def xferSend (c : Nat) (dir : Bool) (m : Msg) (o : Option Owner) (f : State → State) (s : State) : Option State :=
  let n := match m.port with | .mp n | .fp n => some n.toNat | _ => none
  match n with
  | some n =>
    if (churnAt s n).pwr != .active then (if (churnAt s n).waking then none else some (wake n s))
    else if !linkOk s m.port then some (xferFail c 2 1 dir (kindAddr c m.port m.addr.toNat) (kindAddr c m.port m.addr.toNat) s)
    else if sendable s c m o then some (f (sendBy (some c) m o s)) else none
  | none =>
    if !linkOk s m.port then some (xferFail c 2 (statFault m.port 2) dir m.addr.toNat m.addr.toNat s)
    else if sendable s c m o then some (f (sendBy (some c) m o s)) else none

/-! ## The separator's memories -/

/-- A byte of the separator's memories (R217). -/
def cspByte (s : State) (a : Nat) : Byte :=
  if a < 262144 then BitVec.ofNat 8 ((mget 0 s.imem (a / 8)).toNat >>> (8 * (a % 8))) else dmByte s (a - 262144)

/-- Bytes of the separator's memories. -/
def cspRead (s : State) (a n : Nat) : List Byte := (List.range n).map fun i => cspByte s (a + i)

/-- Replaces a byte of a word. -/
def putByte (w : Word) (i : Nat) (b : Byte) : Word := setFld w (8 * i + 7) (8 * i) b.toNat

/-- Writes a byte of the separator's memories. -/
def cspPut (s : State) (x : Nat × Byte) : State :=
  if x.1 < 262144 then { s with imem := mset 0 s.imem (x.1 / 8) (putByte (mget 0 s.imem (x.1 / 8)) (x.1 % 8) x.2) }
  else dmWrite (x.1 - 262144) [x.2] s

/-- Writes bytes of the separator's memories. -/
def cspWrite (a : Nat) (l : List Byte) (s : State) : State := (l.zipIdx.map fun y => (a + y.2, y.1)).foldl cspPut s

/-- Whether instruction memory may be written (R112). -/
def sepStopped (s : State) : Bool := s.sep.st != .running

/-! ## Lists -/

/-- The space of the side a list describes. -/
def sgSpace (i : ChanId) (d : Dsc) : Space :=
  let k := if d.sg = 1 then fld d.cfg 2 0 else fld d.cfg 6 4
  match k, i with
  | 0, .pail n _ => .loc n
  | 2, .pail n _ => .fab n
  | 1, _ => .dpa
  | 3, _ => .hba
  | 4, _ => .peer
  | _, _ => .csp

/-- The end of a kind's range. -/
def spaceEnd : Space → Nat
  | .loc _ => stackEnd
  | .dpa => dpaEnd
  | .csp => 524288
  | _ => 2 ^ 64

/-- The enabled regions a host range meets, each with whether the range lies inside it (R285). -/
def regionsMet (s : State) (a len : Nat) : List (Nat × Bool) :=
  (List.range 8).filterMap fun k =>
    let b := (rd s (.p2pBase k)).toNat
    let z := fld (rd s (.p2pCtl k)) 47 12 * 4096
    if bit (rd s (.p2pCtl k)) 0 && decide (a < b + z) && decide (b < a + len) then
      some (k, decide (b ≤ a) && decide (a + len ≤ b + z))
    else none

/-- Counts the bytes of a host range that are bounced (R285). -/
def countBounce (s : State) (a len : Nat) (x : Xfer) : Xfer :=
  (regionsMet s a len).foldl (fun x k =>
    if (vget {} s.regions k.1).bounce then { x with bounced := mset 0 x.bounced k.1 (mget 0 x.bounced k.1 + len) } else x) x

/-- A list element arrives: checked, and taken as a piece of its side, less what lies before the transfer's base
(R220, R221, R285). -/
def sgElem (c : Nat) (w0 w1 : Word) (s : State) : State :=
  match chanOf c with
  | none => s
  | some i =>
    let d := (chanAt s i).act
    let x := (chanAt s i).x
    let sp := sgSpace i d
    let len := fld w1 31 0
    let a := w0.toNat
    let ea := d.sgl.toNat + 16 * x.sgn
    let q := d.bytes - x.sgl
    let bad := len = 0 ∨ fld w1 62 32 ≠ 0 ∨ a + len > spaceEnd sp ∨ bit w1 63 ≠ decide (x.sgl ≤ len) ∨ x.sgl < len
      ∨ x.sgn ≥ 65536 ∨ (sp = .hba ∧ (regionsMet s a len).any fun k => !k.2)
    if bad then listFail c ea x.sgn s
    else
      let skip := min len (x.base - (if d.sg = 1 then x.skip else 0) - q)
      let p : Piece := { sp := sp, addr := a + skip, len := len - skip }
      modX c (fun x =>
        let x := if sp = .hba then { countBounce s a len x with met := x.met ++ (regionsMet s a len).map (·.1) } else x
        { x with
          sgn := x.sgn + 1, sgl := x.sgl - len, sgEnd := bit w1 63, sgs := x.sgs ++ [(q, x.sgn)]
          src := if d.sg = 1 then x.src ++ [p] else x.src
          dst := if d.sg = 2 then x.dst ++ [p] else x.dst }) s

/-- Fetches the next list element: from data memory for a hub channel, through MPn for a pail (R220). -/
def sgFetch (c : Nat) (s : State) : Option State :=
  match chanOf c with
  | none => none
  | some i =>
    let d := (chanAt s i).act
    let x := (chanAt s i).x
    let a := d.sgl.toNat + 16 * x.sgn
    if x.sgEnd then none
    else if owed s (fun o => o == .chanSg c) then none
    else if x.sgn ≥ 65536 then some (listFail c a x.sgn s)
    else
      match i with
      | .hub _ =>
        if a + 16 > dmSize then some (listFail c a x.sgn s) else some (sgElem c (dmRead s a) (dmRead s (a + 8)) s)
      | .pail n _ =>
        if a + 16 > stackEnd then some (listFail c a x.sgn s)
        else xferSend c false (rdMsg (.mp n) (dpaOf (ilv s) n.toNat (a / 16 * 16)) 16 d.oc) (some (.chanSg c)) id s

/-- The bytes of its side that a transfer's list is known for (R220). -/
def sgKnown (d : Dsc) (x : Xfer) : Nat := d.bytes - x.sgl

/-- The elements of a list are read ahead of their use (R221): 4 KiB ahead of the source (DESIGN CHOICE, log entry 92). -/
def sgStep (c : Nat) (s : State) : Option State :=
  let x := xferAt s c
  let d := dscAt s c
  if d.sg = 0 || x.sgEnd || x.failing || !reading s c || decide (x.base + x.rpos + 4096 ≤ sgKnown d x) then none else sgFetch c s

/-- Whether the destination's list covers a read of `k` bytes, so that what it returns can be written whatever comes (R232). -/
def sgCovers (d : Dsc) (x : Xfer) (k : Nat) : Bool := d.sg != 2 || x.sgEnd || decide (x.base + x.rpos + k ≤ sgKnown d x)

/-! ## Blocks of an entry -/

/-- Takes the next block of an entry's segment in churn `n` as a piece of a spill, or gives it new sectors for a recall
(R71, R72). Its map entry is read first. -/
def blkStep (c : Nat) (src : Bool) (n : BitVec 5) (e i left : Nat) (s : State) : Option State :=
  let put (l : List Piece) (s : State) : State :=
    modX c (fun x => if src then { x with src := l ++ x.src.drop 1 } else { x with dst := l ++ x.dst.drop 1 }) s
  if i ≥ (entAt s e).mapLen.toNat then some (put [{ sp := .lit, addr := 0, len := left }] s)
  else
    match mapWord s n.toNat e i with
    | none =>
      if owed s (fun o => o == .chanSg c) then none
      else
        let g := mapKey s e i / 8 * 8
        xferSend c (!src) (rdMsg (.mp n) (dpaOf (ilv s) n.toNat (64 * g)) 512 0) (some (.chanSg c)) id s
    | some m =>
      let k := if mapBad m then 0 else mapSect m
      let rest : List Piece := if left - 64 * k = 0 then [] else [{ sp := .blk n e (i + 1), addr := 0, len := left - 64 * k }]
      if k = 0 then some (put rest s)
      else if src then some (put ({ sp := .loc n, addr := mapLoc m, len := 64 * k } :: rest) s)
      else if s.ladder.stalled.getLsbD n.toNat && (freeChunk s n.toNat).isSome
          && decide ((mget noOpen (churnAt s n.toNat).opens e).next + k > 16384) then none
      else
        match placeSectors n.toNat e k s with
        | none => none
        | some (a, s1) =>
          let own := (churnAt s1 n.toNat).chunks.length != (churnAt s n.toNat).chunks.length
          let m' := setFld m 47 0 (dpaOf (ilv s1) n.toNat a)
          let s1 := mapStore n.toNat e i m' (put ({ sp := .loc n, addr := a, len := 64 * k } :: rest) s1)
          some (if own then ladderEval s1 else s1)

/-- Counts the bytes a spill writes to the cold cellar, or a recall reads back (R129). -/
def countCold (c : Nat) (out : Bool) (k : Nat) (s : State) : State :=
  match chanOf c with
  | some i =>
    match (chanAt s i).job, out with
    | .spill .., true | .gone true, true => plan (fun p => { p with coldOut := satAdd p.coldOut k }) s
    | .recall _, false | .gone false, false => plan (fun p => { p with coldIn := satAdd p.coldIn k }) s
    | _, _ => s
  | none => s

/-! ## Quanta -/

/-- The bytes a transfer holds or has asked for and not yet written. -/
def Xfer.held (x : Xfer) : Nat := (x.rpos - x.apos) + x.raw.length + x.out.length

/-- The room a transfer has for reads (R223). -/
def readRoom : Space → Nat
  | .loc _ | .dpa => 262144
  | _ => 4194304

/-- Takes `data` as the next source bytes, at once. -/
def srcNow (c : Nat) (p : Piece) (r : List Piece) (data : List Byte) (s : State) : State :=
  modX c (fun x => { x with
    src := p.adv data.length :: r, arr := mset [] x.arr x.rpos data, rpos := x.rpos + data.length }) s

/-- The next read of transfer `c`. -/
def srcStep (c : Nat) (s : State) : Option State :=
  let x := xferAt s c
  let d := dscAt s c
  if !reading s c || x.failing then none
  else
    match x.src with
    | [] => if d.sg = 1 then sgFetch c s else none
    | p :: r =>
      if p.len = 0 then some (modX c (fun x => { x with src := r }) s)
      else
        let (a, k) := pieceReq x true p
        if x.held + k > readRoom p.sp || !sgCovers d x k then none
        else
          match p.sp with
          | .blk n e i => blkStep c true n e i p.len s
          | .lit => some (srcNow c p r (padTo k (p.lit.take k)) s)
          | .csp => some (srcNow c p r (cspRead s a k) s)
          | .ctl => some (srcNow c p r ((List.range (k / 8)).flatMap fun i => wordBytes (mget 0 s.snap.ctl (a / 8 + i))) s)
          | _ =>
            if p.sp = .sealed ∧ p.off % 4160 ≥ 64 ∧ x.apos < x.rpos - (p.off % 4160 - 64) then none
            else
              let (port, pa) := portOf s p.sp a
              let m := rdMsg port pa k d.oc (d.ns && port == .hbp) (if port = .pp then d.chip else 0)
              xferSend c false m (some (.chanRd c x.rpos))
                (modX c fun x => { x with src := p.adv k :: r, rpos := x.rpos + k }) s

/-- Takes the source bytes that are next in order (R223). -/
def arrStep (c : Nat) (s : State) : Option State :=
  let x := xferAt s c
  let b := mget [] x.arr x.apos
  if b.isEmpty || x.failing then none
  else some (modX c (fun x => { x with arr := mset [] x.arr x.apos [], apos := x.apos + b.length, raw := x.raw ++ b }) s)

/-- The byte swap of R225 on whole units of `w` bytes. -/
def swapBytes (w : Nat) (l : List Byte) : List Byte :=
  if w ≤ 1 then l else (pieces w (l.length / w) l).flatMap List.reverse

/-- The swap unit of a descriptor (R225). -/
def swapUnit (s : State) (d : Dsc) : Nat :=
  match fld d.cfg 35 34 with
  | 0 => (match fld (rd s .mvCfg) 1 0 with | 1 => 2 | 2 => 4 | _ => 1)
  | 2 => 2
  | 3 => 4
  | _ => 1

/-- Whether a unit can be sealed now; where not, the failure of R340. -/
def sealFail (c : Nat) (slot addr : Nat) (s : State) : Option State :=
  if !(keyAt s slot).valid then some (cryptFail c 1 0x12 slot addr s)
  else if nonceEnd s then some (cryptFail c 6 0x12 slot addr s)
  else none

/-- Whether no more source bytes will come: the transfer stops and no read is out (R232). -/
def readsOver (s : State) (c : Nat) (x : Xfer) : Bool :=
  working s c && !reading s c && !readsOut s c && (mget [] x.arr x.apos).isEmpty

/-- Pieces without their first `k` bytes. -/
def advPieces (k : Nat) : List Piece → List Piece
  | [] => []
  | p :: r => if k < p.len then p.adv k :: r else advPieces (k - p.len) r

/-- Swaps, seals or opens what has arrived, one unit at a time (R225, R335, R338). The last bytes of an abort that fall short of a swap
unit go to the places the swap gives them, at the end of the unit (R225, R232). -/
def coverStep (c : Nat) (s : State) : Option State :=
  let x := xferAt s c
  let d := dscAt s c
  let me := (chipId s).toNat
  let slot := x.slot.toNat
  if x.failing then none
  else
    match x.cover with
    | .clear =>
      let k := x.raw.length / x.swap * x.swap
      if k ≠ 0 then
        some (modX c (fun x => { x with
          out := x.out ++ (swapBytes x.swap (x.raw.take k)).drop x.skip, raw := x.raw.drop k, skip := 0 }) s)
      else if x.raw.isEmpty || !x.out.isEmpty || x.dst.isEmpty || !readsOver s c x then none
      else
        let gap := x.swap - x.raw.length
        let h := gap - x.skip
        some (modX c (fun x => { x with
          out := x.raw.reverse.drop (x.skip - gap), raw := [], skip := 0, dst := advPieces h x.dst, wpos := x.wpos + h
          fails := if h = 0 then x.fails else x.fails ++ [x.wpos] }) s)
    | .sealHba =>
      let a := x.ubase + physUnit x.unit * 4096
      if x.raw.length < 4096 then none
      else
        match sealFail c slot a s with
        | some s => some s
        | none =>
          let (iv, ct, tag, s) := sealUnit slot (aadOf a slot false me) (swapBytes x.swap (x.raw.take 4096)) s
          let tags := x.tags ++ tagEntry iv tag
          let last := x.unit % 128 = 127 ∨ x.unit + 1 = x.uend
          some (modX c (fun x => { x with
            raw := x.raw.drop 4096, unit := x.unit + 1
            out := x.out ++ ct ++ (if last then groupTags (x.unit / 128) tags else [])
            tags := tags }) s)
    | .sealPeer =>
      let a := x.ubase + x.unit * 4096
      if x.raw.length < 4096 then none
      else
        match sealFail c slot a s with
        | some s => some s
        | none =>
          let (iv, ct, tag, s) := sealUnit slot (aadOf a slot true d.chip.toNat) (swapBytes x.swap (x.raw.take 4096)) s
          some (modX c (fun x => { x with
            raw := x.raw.drop 4096, unit := x.unit + 1, out := x.out ++ ct ++ sealRec slot a iv tag }) s)
    | .openHba =>
      if x.raw.length < 4096 then none
      else if x.tags.isEmpty then some (modX c (fun x => { x with tags := x.raw.take 4096, raw := x.raw.drop 4096 }) s)
      else
        let a := x.ubase + physUnit x.unit * 4096
        let t := (x.tags.drop (32 * (x.unit % 128))).take 32
        if !(keyAt s slot).valid then some (cryptFail c 1 0x12 slot a s)
        else
          match gcmOpen (keyBytes (keyAt s slot)) (t.take 12) (aadOf a slot false me)
              (swapBytes x.swap (x.raw.take 4096)) (t.drop 16) with
          | none => some (cryptFail c 2 2 slot a s)
          | some pt => some (modX c (fun x => { x with
              raw := x.raw.drop 4096, out := x.out ++ pt.drop (x.base - x.unit * 4096), unit := x.unit + 1
              tags := if x.unit % 128 = 127 then [] else x.tags }) s)
    | .openPeer =>
      let a := x.ubase + x.unit * 4096
      if x.raw.length < 4160 then none
      else if !(keyAt s slot).valid then some (cryptFail c 1 0x12 slot a s)
      else
        let r := x.raw.take 64
        let ct := swapBytes x.swap ((x.raw.drop 64).take 4096)
        match gcmOpen (keyBytes (keyAt s slot)) ((r.drop 8).take 12) (aadOf a slot true me) ct ((r.drop 24).take 16) with
        | none => some (cryptFail c 3 3 slot a s)
        | some pt => some (modX c (fun x => { x with
            raw := x.raw.drop 4160, out := x.out ++ pt.drop (x.base - x.unit * 4096), unit := x.unit + 1 }) s)

/-- Whether the last bytes of an abort are to be written: no more will join them (R232). -/
def tailOut (s : State) (c : Nat) (x : Xfer) : Bool :=
  readsOver s c x
  && (x.raw.isEmpty || x.cover != .clear || x.raw.length < x.swap)

/-- The last address written to a target on HBP or PP, of the program's work or of the rings' (R104, R283). -/
def noteWrite (ring pp : Bool) (chip : BitVec 17) (a : Nat) (s : State) : State :=
  let same (b : ReadBack) : Bool := b.ring == ring && b.pp == pp && (ring || b.chip == chip)
  { s with readback := s.readback.filter (fun b => !same b) ++ [{ ring := ring, pp := pp, chip := chip, addr := a }] }

/-- Notes a write of transfer `c` for the next GLOBAL fence; spills, recalls and snapshots are nobody's. -/
def noteXfer (c : Nat) (port : PortId) (chip : BitVec 17) (a : Nat) (s : State) : State :=
  let note (ring : Bool) : State :=
    match port with
    | .hbp => noteWrite ring false 0 a s
    | .pp => noteWrite ring true chip a s
    | _ => s
  match chanOf c with
  | some i =>
    match (chanAt s i).job with
    | .hmv _ => note false
    | .none | .move _ => note true
    | _ => s
  | none => s

/-- The next write of transfer `c` (R222, R223, R232). An ABORTING pail reads no more of its list. -/
def dstStep (c : Nat) (s : State) : Option State :=
  let x := xferAt s c
  let d := dscAt s c
  if !working s c || x.failing || x.out.isEmpty then none
  else
    match x.dst with
    | [] => if d.sg = 2 && (reading s c || decide (c < 64)) then sgFetch c s else none
    | p :: r =>
      if p.len = 0 then some (modX c (fun x => { x with dst := r }) s)
      else
        match p.sp with
        | .blk n e i => blkStep c false n e i p.len s
        | .lit =>
          let k := min p.len x.out.length
          some (modX c (fun x => { x with dst := p.adv k :: r, out := x.out.drop k, wpos := x.wpos + k }) s)
        | _ =>
          let (a, k) := pieceReq x false p
          if x.out.length < k ∧ !tailOut s c x then none
          else
            let k := min k x.out.length
            let data := x.out.take k
            let go (s : State) : State :=
              modX c (fun x => { x with dst := p.adv k :: r, out := x.out.drop k, wpos := x.wpos + k, last := some (p.sp, a + k - 1) }) s
            match p.sp with
            | .csp =>
              if a < 262144 ∧ !sepStopped s then some (xferFail c 6 0x14 true a a s) else some (go (cspWrite a data s))
            | .ctl =>
              let m := (bytesWords (k / 8) data).zipIdx.foldl (fun m y => mset 0 m (a / 8 + y.2) y.1) s.snap.ctl
              some (go { s with snap := { s.snap with ctl := m } })
            | _ =>
              let (port, pa) := portOf s p.sp a
              let chip := if port = .pp then d.chip else 0
              let win := p.sp = .sealed ∧ p.off % 4160 ≥ 4096
              let wr := match port with | .mp _ => true | .pp => d.wnp && !win | _ => false
              let m := if wr then wrMsg port pa data d.oc chip else wrpMsg port pa data d.oc (d.ns && port == .hbp) chip
              xferSend c true m (if wr then some (.chanWr c x.wpos) else none)
                (fun s => noteXfer c port chip (pa + k - 1) (go (if port = .hbp then countCold c true k s else s))) s

/-- Whether every byte of a transfer has been read, treated and written. -/
def drained (s : State) (c : Nat) (x : Xfer) : Bool :=
  x.src.all (fun p => p.len == 0) && ((dscAt s c).sg != 1 || x.sgEnd) && x.rpos == x.apos && x.arr.isEmpty && x.raw.isEmpty
  && x.out.isEmpty && !readsOut s c

/-- The next read-back (R227). -/
def barStep (c : Nat) (s : State) : Option State :=
  let x := xferAt s c
  let d := dscAt s c
  if !reading s c || x.failing || !drained s c x then none
  else
    match x.bars, x.last with
    | (sp, a) :: r, _ =>
      let (port, pa) := portOf s sp a
      let m := rdMsg port pa 1 2 (d.ns && port == .hbp) (if port = .pp then d.chip else 0)
      xferSend c false m (some (.chanBar c)) (modX c fun x => { x with bars := r }) s
    | [], some (sp, a) =>
      if !d.bar || sp = .csp || x.barred then none else some (modX c (fun x => { x with bars := [(sp, a)], barred := true }) s)
    | [], none => none

/-- Whether every read-back of a transfer has been asked for (R227). -/
def barsAsked (d : Dsc) (x : Xfer) : Bool :=
  x.bars.isEmpty && (!d.bar || x.barred || (match x.last with | some (sp, _) => sp == .csp | none => true))

/-- Whether transfer `c` has done everything but send its signal: all is written, and what expects an answer has returned OK (R226). -/
def signalDue (s : State) (c : Nat) : Bool :=
  let x := xferAt s c
  reading s c && !x.failing && drained s c x && barsAsked (dscAt s c) x && !xferBusy s c

/-- Whether a channel's descriptor asks for a signal (R228). -/
def wantsSig (d : Dsc) : Bool := bit d.cfg 30

/-- The completion signal, after everything else (R226, R228); a link that is down halts the channel (R231). -/
def sigStep (c : Nat) (s : State) : Option State :=
  match chanOf c with
  | none => none
  | some i =>
    let d := (chanAt s i).act
    if !wantsSig d || (xferAt s c).sigd || !signalDue s c then none
    else
      let m := match i with
        | .pail n _ => sigMsg (.fp n) d.sig.toNat (fld d.cfg 27 12)
        | .hub _ => sigMsg .pp d.sig.toNat (fld d.cfg 27 12) d.chip
      xferSend c true m none (modX c fun x => { x with sigd := true }) s

/-- One quantum of transfer `c`. -/
def xferStep (c : Nat) (s : State) : Option State :=
  (dstStep c s).orElse fun _ => (coverStep c s).orElse fun _ => (arrStep c s).orElse fun _ =>
    (sgStep c s).orElse fun _ => (srcStep c s).orElse fun _ => (barStep c s).orElse fun _ => sigStep c s

/-- Whether a transfer has completed (R226). -/
def xferDone (s : State) (c : Nat) : Bool := signalDue s c && (!wantsSig (dscAt s c) || (xferAt s c).sigd)

/-- Transfer `c` goes on until it has issued a request, or as far as it can; none when it can do nothing. The first argument bounds its
quanta. -/
def xferTurn (c : Nat) : Nat → State → Option State
  | 0, _ => none
  | k + 1, s =>
    match xferStep c s with
    | none => none
    | some t =>
      if t.sent.length + t.txq.length ≠ s.sent.length + s.txq.length then some t
      else match xferTurn c k t with | some u => some u | none => some t

/-! ## Responses -/

/-- The response of a request of transfer `c` with OK. -/
def xferOk (c : Nat) (o : Owner) (data : List Byte) (s : State) : State :=
  match o with
  | .chanRd _ pos =>
    if (xferAt s c).failing then s
    else countCold c false data.length (modX c (fun x => { x with arr := mset [] x.arr pos data }) s)
  | .chanSg _ =>
    let x := xferAt s c
    match x.dst.head?, x.src.head? with
    | some { sp := .blk n e i, .. }, _ => mapFilled n.toNat (mapKey s e i / 8 * 8) e data s
    | _, some { sp := .blk n e i, .. } => mapFilled n.toNat (mapKey s e i / 8 * 8) e data s
    | _, _ => if x.failing then s else match bytesWords 2 data with | [a, b] => sgElem c a b s | _ => s
  | .chanBar _ => modX c (fun x => { x with barOk := x.bars.isEmpty }) s
  | _ => s

/-- The response of a request of transfer `c` with an error. A channel's fault is the one R230 gives its STAT; a snapshot's or
restore's is the port's bus fault (R324, R331). -/
def xferErr (c : Nat) (f : Flight) (stat : Nat) (data : List Byte) (s : State) : State :=
  let e := statErr stat
  let code := statFault f.port (if (chanOf c).isSome then e else 2)
  let addr := kindAddr c f.port f.addr
  let info := rspInfo f code stat data addr
  match f.owner with
  | .chanWr _ pos => xferFail c e code true addr info (modX c (fun x => { x with fails := x.fails ++ [pos] }) s)
  | _ => xferFail c e code false addr info s

end Sys2Proof.Machine
end

