-- ==== Sys2Proof/Machine/Movers.lean ====
section
/-! DEFINITION. The mover channels (R213 to R235): owners, commands, start, completion, halt and abort, and the spills, recalls
and loads of the system channels (R64, R71, R72, R214). -/

namespace Sys2Proof.Machine

/-! ## Owners and descriptors -/

/-- Whether a channel is one of 24 to 31 (R214). -/
def isSystem : ChanId → Bool
  | .hub c => decide (24 ≤ c.toNat) && decide (c.toNat < 32)
  | .pail .. => false

/-- Whether host software owns a channel (R213). -/
def hostOwned (s : State) : ChanId → Bool
  | .hub c => !isSystem (.hub c) && bit (rd s .mvHown) c.toNat
  | .pail .. => true

/-- The engine of a channel: the churn or 32 for the hub, and a number within (R213). -/
def engineOf : ChanId → Nat × Nat
  | .hub c => (32, c.toNat / 8)
  | .pail n c => (n.toNat, c.toNat / 4)

/-- The channels of an engine. -/
def engineChans (i : ChanId) : List ChanId :=
  match i with
  | .hub c => (List.range 8).map fun k => .hub (BitVec.ofNat 6 (c.toNat / 8 * 8 + k))
  | .pail n c => (List.range 4).map fun k => .pail n (BitVec.ofNat 3 (c.toNat / 4 * 4 + k))

/-- SKIND and DKIND of a descriptor. -/
def kinds (d : Dsc) : Nat × Nat := (fld d.cfg 2 0, fld d.cfg 6 4)

/-- The pairs of kinds a channel accepts (R218). -/
def pairOk (i : ChanId) (d : Dsc) : Bool :=
  match i with
  | .pail .. => [(0, 0), (0, 2)].contains (kinds d)
  | .hub c => if c.toNat < 32 then [(3, 1), (1, 3), (3, 5), (5, 3)].contains (kinds d) else [(4, 1), (1, 4)].contains (kinds d)

/-- The space of a kind (R217). -/
def kindSpace (i : ChanId) (k : Nat) : Space :=
  match k, i with
  | 0, .pail n _ => .loc n
  | 2, .pail n _ => .fab n
  | 1, _ => .dpa
  | 3, _ => .hba
  | 4, _ => .peer
  | _, _ => .csp

/-- How the cipher treats a channel's transfer, under the MODE in force when it starts (R334, R373). -/
def coverOf (s : State) (i : ChanId) : Cover :=
  match i with
  | .pail .. => .clear
  | .hub c =>
    let h := chanAt s i
    let k := kinds h.act
    match h.job with
    | .spill .. => if cryptMode s ≠ 0 then .sealHba else .clear
    | .recall _ => if cryptMode s ≠ 0 then .openHba else .clear
    | _ =>
      if cryptMode s ≠ 2 then .clear
      else if c.toNat ≥ 32 then (if k.2 = 4 then .sealPeer else .openPeer)
      else if hostOwned s i ∨ isSystem i then .clear
      else if k = (1, 3) then .sealHba
      else if k = (3, 1) then .openHba else .clear

/-- The slot the cipher uses for a channel's transfer (R334). -/
def slotOf (s : State) (i : ChanId) : BitVec 3 :=
  match (chanAt s i).job with
  | .spill .. | .recall _ => BitVec.ofNat 3 (fld (rd s .cryptCfg) 6 4)
  | _ => (chanAt s i).act.cfg.extractLsb' 44 3

/-- Whether the cipher seals or opens host memory. -/
def Cover.isHba : Cover → Bool
  | .sealHba | .openHba => true
  | _ => false

/-- The bytes of host memory a side of `len` bytes occupies (R335). -/
def hbaBytes (cov : Bool) (len : Nat) : Nat := if cov then withTags true (cdiv len 4096) * 4096 else len

/-- The host memory side of a descriptor, if it is contiguous: address and length. -/
def hbaSide (s : State) (i : ChanId) (d : Dsc) : Option (Nat × Nat) :=
  let z := hbaBytes (coverOf s i).isHba d.bytes
  if (kinds d).1 = 3 then (if d.sg = 1 then none else some (d.src.toNat, z))
  else if (kinds d).2 = 3 then (if d.sg = 2 then none else some (d.dst.toNat, z))
  else none

/-- The check of a descriptor at start (R219, R285). -/
def dscOk (s : State) (i : ChanId) (d : Dsc) : Bool :=
  let k := kinds d
  let len := d.bytes
  let cov := coverOf s i
  let fits (list : Bool) (kd a : Nat) : Bool :=
    list || decide (a + len ≤ spaceEnd (kindSpace i kd))
  let whole (a : Word) : Bool := a.toNat % 4096 == 0
  pairOk i d
  && fld d.cfg 43 42 == 0 && !bit d.cfg 28 && fld d.cfg 11 7 == 0 && !bit d.cfg 3 && d.oc != 3 && d.sg != 3 && fld d.len 63 40 == 0
  && (!d.ns || k.1 == 3 || k.2 == 3) && (!d.wnp || k.2 == 4)
  && fits (d.sg == 1) k.1 d.src.toNat && fits (d.sg == 2) k.2 d.dst.toNat
  && (k.2 != 5 || d.dst.toNat ≥ 262144 || sepStopped s)
  && len % swapUnit s d == 0
  && (!d.bar || k.2 != 2) && (!bit d.cfg 30 || k.2 == 2 || k.2 == 4)
  && !(d.sg == 1 && (k.1 == 5 || cov == .openHba || cov == .openPeer))
  && !(d.sg == 2 && (k.2 == 5 || cov == .sealHba || cov == .sealPeer))
  && (match cov with
      | .clear => true
      | .openHba | .openPeer => whole d.src && len % 4096 == 0
      | _ => whole d.dst && len % 4096 == 0)
  && (match hbaSide s i d with | some (a, z) => (regionsMet s a z).all (·.2) | none => true)

/-- The elements of a list in data memory, up to END or one that is not there (R220). The first argument bounds them. -/
def listRanges (s : State) : Nat → Nat → List (Nat × Nat)
  | 0, _ => []
  | k + 1, a =>
    if a + 16 > dmSize then []
    else
      let w1 := dmRead s (a + 8)
      ((dmRead s a).toNat, fld w1 31 0) :: if bit w1 63 then [] else listRanges s k (a + 16)

/-- The host memory ranges of a channel's transfer: its contiguous side, or the elements of its list (R284, R285). -/
def hbaRanges (s : State) (i : ChanId) (d : Dsc) : List (Nat × Nat) :=
  match hbaSide s i d with
  | some r => [r]
  | none =>
    if (d.sg = 1 ∧ (kinds d).1 = 3) ∨ (d.sg = 2 ∧ (kinds d).2 = 3) then listRanges s 65536 d.sgl.toNat else []

/-- Whether every enabled region a transfer's host side meets is ready (R285). -/
def regionsReady (s : State) (i : ChanId) : Bool :=
  (hbaRanges s i (chanAt s i).act).all fun r => (regionsMet s r.1 r.2).all fun k => (vget {} s.regions k.1).ready

/-! ## Start -/

/-- The logical unit at which churn `n`'s segment of an extent starts (R71). -/
def segStart (s : State) (e n : Nat) : Nat :=
  ((maskList (entAt s e).chmask).filter (· < n)).foldl (fun a m => a + segUnits s m e) 0

/-- The pieces of a segment: header, blocks and padding (R71). -/
def segPieces (s : State) (e n : Nat) : List Piece :=
  let k := mget 0 (churnAt s n).sects e
  let hdr := padTo 64 (wordsBytes [pack [(24, e), (0, n)], pack [(0, k % 2 ^ 40)]])
  [{ sp := .lit, addr := 0, len := 64, lit := hdr }, { sp := .blk (BitVec.ofNat 5 n) e 0, addr := 0, len := 64 * k },
   { sp := .lit, addr := 0, len := 4096 * segUnits s n e - 64 - 64 * k }].filter fun p => p.len != 0

/-- The host address of an entry's cold extent. -/
def coldAddr (s : State) (e : Nat) : Nat := (rd s .coldBase).toNat + 4096 * (entAt s e).cold.toNat

/-- The progress of a spill or recall at its start (R71, R72, R225, R285). -/
def extentX (s : State) (e : Nat) (out : Bool) (cov : Cover) (slot : BitVec 3) (d : Dsc) : Xfer :=
  let u := extentLogical s e
  let a := coldAddr s e
  let ns := maskList (entAt s e).chmask
  let mem := ns.flatMap (segPieces s e)
  let phys (j : Nat) : Nat := if cov == .clear then j else physUnit j
  let z := if cov == .clear then u else withTags true u
  let host : List Piece :=
    if cov == .openHba then [{ sp := .cov, addr := a, len := covPos (u - 1) + 4096 }]
    else [{ sp := .hba, addr := a, len := z * 4096 }]
  countBounce s a (z * 4096)
  { src := if out then mem else host
    dst := if out then host else mem
    bars := if out then ns.map fun n => (.hba, a + phys (segStart s e n + segUnits s n e - 1) * 4096 + 4095) else []
    swap := swapUnit s d, cover := cov, slot := slot, unit := 0, uend := u, ubase := a }

/-- The progress of a transfer of a descriptor that starts, or resumes from `y`: at its position, whole units under a cipher that seals
and whole swap units at its source (R222, R225, R230, R335, R338). -/
def startX (s : State) (i : ChanId) (y : Xfer) : Xfer :=
  let d := (chanAt s i).act
  let cov := coverOf s i
  let len := d.bytes
  let base := if cov == .sealHba || cov == .sealPeer then y.base / 4096 * 4096 else y.base
  let swap := swapUnit s d
  let skip := if cov == .clear then base % swap else 0
  let u0 := base / 4096
  let uend := cdiv len 4096
  let due := y.tagDue && cov == .sealHba
  let phys := if due then physUnit (u0 - 1) + 1 else physUnit u0
  let plain (k : Nat) (a : Word) (b : Nat) : List Piece := [{ sp := kindSpace i k, addr := a.toNat + b, len := len - b }]
  let src : List Piece :=
    if d.sg = 1 then []
    else match cov with
      | .openHba =>
        let b := u0 / 128 * 528384
        if uend ≤ u0 then []
        else [{ sp := .cov, addr := d.src.toNat, len := 4096, off := b },
         { sp := .cov, addr := d.src.toNat, len := covPos (uend - 1) + 4096 - covPos u0, off := covPos u0 }]
      | .openPeer => [{ sp := .sealed, addr := d.src.toNat, len := (uend - u0) * 4160, off := u0 * 4160 }]
      | _ => plain (kinds d).1 d.src (base - skip)
  let dst : List Piece :=
    if d.sg = 2 then []
    else match cov with
      | .sealHba => [{ sp := .hba, addr := d.dst.toNat + phys * 4096, len := (withTags true uend - phys) * 4096 }]
      | .sealPeer => [{ sp := .sealed, addr := d.dst.toNat, len := (uend - u0) * 4160, off := u0 * 4160 }]
      | _ => plain (kinds d).2 d.dst base
  let tags := if cov == .sealHba then y.tags.take (32 * u0) else []
  let x : Xfer :=
    { src := src, dst := dst, base := base, swap := swap, skip := skip, sgl := len, cover := cov, slot := slotOf s i
      unit := u0, uend := uend, ubase := if cov == .openHba || cov == .openPeer then d.src.toNat else d.dst.toNat
      tags := tags, phys := phys, out := if due then groupTags ((u0 - 1) / 128) tags else []
      last := y.last, barred := y.barred, barOk := y.barOk }
  match hbaSide s i d with
  | some (a, z) => countBounce s a z x
  | none => x

/-- The best QUEUED channel of an engine: the highest PRI, and among those the one that has waited longest (R235). -/
def bestQueued (s : State) (i : ChanId) : Option ChanId :=
  ((engineChans i).filter fun j => (chanAt s j).st == .queued).foldl (fun b j =>
    match b with
    | none => some j
    | some k =>
      let p (x : ChanId) : Nat := fld (chanAt s x).act.cfg 37 36
      if p k < p j ∨ (p k = p j ∧ (chanAt s j).stamp < (chanAt s k).stamp) then some j else some k) none

/-- Whether a channel's engine is free, and the channel is the one it starts next (R235, R285). -/
def canStart (s : State) (i : ChanId) : Bool :=
  ((engineChans i).all fun j => (chanAt s j).st != .active && (chanAt s j).st != .aborting)
  && bestQueued s i == some i && regionsReady s i
  && (match i with | .pail n _ => (churnAt s n.toNat).pwr == .active | _ => true)

/-- Writes words 6 and 7 of a descriptor that hmv named (R216, R226). -/
def hmvEnd (i : ChanId) (s : State) : State :=
  match (chanAt s i).job with
  | .hmv a => dmWrite (a + 48) (wordsBytes [BitVec.ofNat 64 (chanAt s i).resid.toNat, chanStat (chanAt s i)]) s
  | _ => s

/-- The channel of ring `r`'s command has ended; `v` is what the command reports of it. -/
def ringLearns (r : Nat) (op : Nat) (bad : Bool) (v : Nat) (s : State) : State :=
  modRing r (fun x =>
    if x.st == .executing && fld (nth x.cmd 0) 47 40 == op then { x with ended := true, bad := bad, left := v } else x) s

/-- The job of a channel ends: a waiting ring command learns of it (R270, R271). -/
def jobEnd (i : ChanId) (bad : Bool) (s : State) : State :=
  let c := chanAt s i
  match c.job with
  | .load r => ringLearns r.toNat 2 bad c.resid.toNat (modChan i (fun c => { c with job := .none }) s)
  | .move r => ringLearns r.toNat 5 bad (chanStat c).toNat (modChan i (fun c => { c with job := .none }) s)
  | _ => s

/-- Puts a channel into QUEUED behind the channels that wait already (R235). -/
def enqueueChan (i : ChanId) (s : State) : State :=
  { modChan i (fun c => { c with st := .queued, stamp := s.stamp }) s with stamp := s.stamp + 1 }

/-- GO on an idle channel: the shadow becomes the active copy (R233, R235). One that hmv or MOVE gave has its reserved bits in the
active copy, where the check of R219 finds them, and not in the registers (R9). -/
def chanLaunch (i : ChanId) (job : Job) (s : State) : State :=
  let s := modChan i (fun c => { c with act := c.sh, sh := c.sh.stored, x := {}, job := job, runs := c.runs + 1 }) s
  let s := enqueueChan i s
  match i with
  | .pail n _ => wake n.toNat s
  | _ => s

/-- Gives waiting spills, recalls and loads the free system channels, lowest first (R214). -/
def assignJobs : Nat → State → State
  | 0, s => s
  | k + 1, s =>
    match s.sysWait, (List.range 8).find? fun c => (chanAt s (.hub (BitVec.ofNat 6 (24 + c)))).st == .idle
        && (chanAt s (.hub (BitVec.ofNat 6 (24 + c)))).job == .none with
    | j :: r, some c =>
      let i : ChanId := .hub (BitVec.ofNat 6 (24 + c))
      let d : Dsc :=
        match j with
        | .spill e _ => { dst := BitVec.ofNat 64 (coldAddr s e), len := BitVec.ofNat 64 (extentLogical s e * 4096),
                          cfg := pack [(31, 1), (4, 3), (0, 1)] }
        | .recall e => { src := BitVec.ofNat 64 (coldAddr s e), len := BitVec.ofNat 64 (extentLogical s e * 4096),
                         cfg := pack [(4, 1), (0, 3)] }
        | .load q =>
          let w := (ringAt s q.toNat).cmd
          { src := nth w 1, dst := BitVec.ofNat 64 (fld (nth w 4) 18 0), len := BitVec.ofNat 64 (fld (nth w 2) 39 0),
            cfg := pack [(4, 5), (0, 3)] }
        | _ => {}
      assignJobs k (chanLaunch i j (modChan i (fun h => { h with sh := d, done := false, flt := false, abt := false })
        { s with sysWait := r }))
    | _, _ => s

/-- A completed transfer reports the bytes bounced in each region, and HMV_BNC (R285). -/
def bounceReport (i : ChanId) (s : State) : State :=
  let b := (chanAt s i).x.bounced
  let s := b.foldl (fun s k =>
    { s with regions := vset s.regions k.1 { vget {} s.regions k.1 with evt := satAdd (vget {} s.regions k.1).evt k.2 } }) s
  match i with
  | .hub n => if b.isEmpty then s else { s with hmvBnc := s.hmvBnc ||| BitVec.ofNat 32 (2 ^ n.toNat) }
  | _ => s

/-- Ends a transfer that completed: DONE, the bounce report and the chained descriptor (R226, R285). -/
def transferEnd (i : ChanId) (s : State) : State :=
  let s := bounceReport i (modChan i (fun c => { c with st := .idle, done := true, resid := 0 }) s)
  let s := jobEnd i false (hmvEnd i s)
  if (chanAt s i).pend then
    enqueueChan i (modChan i (fun c => { c with pend := false, act := c.sh, sh := c.sh.stored, x := {}, job := .none }) s)
  else s

/-- A descriptor that is refused (R219). -/
def refuseDsc (i : ChanId) (s : State) : State :=
  let s := noteFault i (raise 0x14 (xferRec s (chanNo i)) 0 s)
  let s := modChan i (fun c => { c with st := .idle, err := 6, flt := true, pend := false }) s
  match (chanAt s i).job with
  | .load _ => assignJobs 8 (jobEnd i true (modChan i (fun c => { c with resid := c.act.len.setWidth 40 }) s))
  | _ => jobEnd i true s

/-- The address of a transfer's first covered unit. -/
def firstUnit (x : Xfer) : Nat :=
  match x.cover with
  | .sealHba | .openHba => x.ubase + physUnit x.unit * 4096
  | _ => x.ubase + x.unit * 4096

/-! ## Spills and recalls -/

/-- Takes a ladder action on an entry off the list, and lets the ladder go on (R74). -/
def actionEnd (e : Nat) (s : State) : State :=
  ladderEval { s with ladder := { s.ladder with actions := s.ladder.actions.filter fun a => !(a.e == e && a.rung == .spill) } }

/-- Frees an entry's chunks in every churn; what the entry stores there stays known for its recall (R64, R67). -/
def freeChunks (e : Nat) (s : State) : State :=
  allChurns (fun n s => modChurn n (fun c => { c with
    chunks := mmap noChunk (fun _ x => if x.e = e then { x with marked := true } else x) c.chunks
    opens := mset noOpen c.opens e noOpen }) s) s

/-- A system channel is free again. -/
def sysFree (i : ChanId) (s : State) : State :=
  assignJobs 8 (modChan i (fun c => { c with st := .idle, job := .none, x := {} }) s)

/-- The deferred fetches of an entry whose recall failed run as aborted tasks (R64, R99, R263). -/
def deferFail (e : Nat) (s : State) : State :=
  { s with deferred := s.deferred.map fun d => if d.2.entry = e then (d.1, { d.2 with failed := true }) else d }

/-- A recall is over: the reference it held falls (R63). -/
def recallDrop (e : Nat) (s : State) : State :=
  if (entAt s e).recRef then dropRef e (modEnt e (fun x => { x with recRef := false }) s) else settleRefs e s

/-- The last of a spill or recall that failed (R64). -/
def extentFail (i : ChanId) (s : State) : State :=
  match (chanAt s i).job with
  | .spill e l =>
    let x := entAt s e
    let s := sysFree i s
    if x.st == .spilling then
      let s := modEnt e (fun x => { x with st := .resident, cold := 0 }) { s with cold := mdel s.cold x.cold.toNat }
      let s := dropRef e s
      if l then actionEnd e s else s
    else s
  | .recall e =>
    let s := sysFree i s
    if (entAt s e).st == .recalling then
      deferFail e (recallDrop e (modEnt e (fun x => { x with st := .spilled }) (freeChunks e s)))
    else s
  | _ => s

/-- Whether a descriptor, or the extent of a spill or recall, is refused at start (R219, R285). -/
def startRefused (s : State) (i : ChanId) (d : Dsc) : Bool :=
  match (chanAt s i).job with
  | .spill .. | .recall _ => (hbaRanges s i d).any fun r => (regionsMet s r.1 r.2).any fun k => !k.2
  | _ => !dscOk s i d

/-- The extent of a spill that starts has the length that the MODE in force asks for: one placed under another MODE is placed afresh
(R71, R373; log entry 40). None where the cold cellar has no room. -/
def spillFit (i : ChanId) (s : State) : Option State :=
  match (chanAt s i).job with
  | .spill e _ =>
    let old := (entAt s e).cold.toNat
    let k := extentUnits s e
    if mget 0 s.cold old = k then some s
    else
      let t := { s with cold := mdel s.cold old }
      (coldAlloc t k).map fun a =>
        let t := modEnt e (fun x => { x with cold := BitVec.ofNat 36 a }) { t with cold := mset 0 t.cold a k }
        modChan i (fun c => { c with act := { c.act with dst := BitVec.ofNat 64 (coldAddr t e) } }) t
  | _ => some s

/-- A free engine starts a channel whose extent, if it has one, fits (R219, R226, R235, R285, R340). -/
def startFit (i : ChanId) (s : State) : State :=
  let c := chanAt s i
  let ext := match c.job with | .spill .. | .recall _ => true | _ => false
  if !c.x.failing && startRefused s i c.act then (if ext then extentFail i (refuseDsc i s) else refuseDsc i s)
  else if !ext ∧ c.act.bytes = 0 then transferEnd i (modChan i (fun c => { c with st := .active }) s)
  else
    let x := match c.job with
      | .spill e _ => extentX s e true (coverOf s i) (slotOf s i) c.act
      | .recall e => extentX s e false (coverOf s i) (slotOf s i) c.act
      | _ => startX s i c.x
    let s := modChan i (fun c => { c with st := .active, x := x }) s
    if x.cover != .clear && !(keyAt s x.slot.toNat).valid then
      cryptFail (chanNo i) 1 0x12 x.slot.toNat (firstUnit x) s
    else s

/-- A free engine starts a channel: a spill whose extent no longer fits is over, with CELLAR_FULL (R70, R373). -/
def startChan (i : ChanId) (s : State) : State :=
  match spillFit i s, (chanAt s i).job with
  | some t, _ => startFit i t
  | none, .spill e _ => extentFail i (cellarFull 1 (some e) s)
  | none, _ => s

/-- Both copies of an entry released during its spill or recall are returned once its transfer has stopped (R64). -/
def extentStop (i : ChanId) (s : State) : State :=
  match (chanAt s i).job with
  | .spill e l =>
    let s := { sysFree i s with cold := mdel s.cold (entAt s e).cold.toNat }
    let s := dropRef e (returnStorage e s)
    if l then ladderEval (actionReturns e .spill s) else s
  | .recall e =>
    let s := { sysFree i s with cold := mdel s.cold (entAt s e).cold.toNat }
    recallDrop e (returnStorage e s)
  | .gone _ => sysFree i s
  | _ => s

/-- Stops the spill or recall of an entry that is released (R64): one not yet started is dropped at once. -/
def extentRelease (e : Nat) (s : State) : State :=
  let mine (j : Job) : Bool := match j with | .spill f _ | .recall f => f == e | _ => false
  match (List.range 8).find? fun c => mine (chanAt s (.hub (BitVec.ofNat 6 (24 + c)))).job with
  | some c =>
    let i : ChanId := .hub (BitVec.ofNat 6 (24 + c))
    if (chanAt s i).st == .active then modChan i (fun h => { h with st := .aborting }) s else extentStop i s
  | none =>
    let l := s.ladder.actions.any fun a => a.e == e && a.rung == .spill
    let spill := s.sysWait.any fun j => match j with | .spill f _ => f == e | _ => false
    let s := { s with sysWait := s.sysWait.filter fun j => !mine j, cold := mdel s.cold (entAt s e).cold.toNat }
    let s := if spill then dropRef e (returnStorage e s) else recallDrop e (returnStorage e s)
    if l then ladderEval (actionReturns e .spill s) else s

/-- The spill or recall of an entry that a rollback frees stops after its current burst, and answers to no entry any more: what a
recall still receives is discarded (R64, R319; log entry 44). -/
def extentGone (e : Nat) (s : State) : State :=
  let mine (j : Job) : Bool := match j with | .spill f _ | .recall f => f == e | _ => false
  let stop (c : Nat) (s : State) : State :=
    let i : ChanId := .hub (BitVec.ofNat 6 (24 + c))
    let h := chanAt s i
    let out := match h.job with | .spill .. => true | _ => false
    if !mine h.job then s
    else if h.st == .active || h.st == .aborting then
      let rest : List Piece := [{ sp := .lit, addr := 0, len := h.x.dst.foldl (fun a p => a + p.len) 0 }]
      let x := { h.x with src := [], dst := if out then h.x.dst else rest }
      modChan i (fun h => { h with st := .aborting, job := .gone out, x := x }) s
    else sysFree i s
  let s := { s with sysWait := s.sysWait.filter fun j => !mine j }
  actionReturns e .spill ((List.range 8).foldl (fun s c => stop c s) s)

/-- The system channel that works on an entry. -/
def jobOn (s : State) (p : Job → Bool) : Option ChanId :=
  ((List.range 8).map fun c => (.hub (BitVec.ofNat 6 (24 + c)) : ChanId)).find? fun i => p (chanAt s i).job

/-- SPILL_COMPLETE's effect (R64, R72). -/
def spillEnd (e : Nat) (s : State) : State :=
  match jobOn s fun j => match j with | .spill f _ => f == e | _ => false with
  | none => s
  | some i =>
    if !xferDone s (chanNo i) then s
    else
      let l := match (chanAt s i).job with | .spill _ l => l | _ => false
      let s := bounceReport i (modChan i (fun c => { c with done := true, resid := 0 }) s)
      let s := freeChunks e (sysFree i s)
      let s := dropRef e (modEnt e (fun x => { x with st := .spilled }) s)
      if l then ladderEval (actionReturns e .spill (bumpCel 1 s)) else s

/-- RECALL_COMPLETE's effect: every map is rewritten and written back (R61, R64, R72). -/
def recallEnd (e : Nat) (s : State) : State :=
  match jobOn s fun j => j == .recall e with
  | none => s
  | some i =>
    if !xferDone s (chanNo i) || (List.range 32).any fun n => mapOwed s n e then s
    else
      let s := bounceReport i (modChan i (fun c => { c with done := true, resid := 0 }) s)
      let s := allChurns (closeChunk · e) (sysFree i s)
      let s := { s with cold := mdel s.cold (entAt s e).cold.toNat }
      recallDrop e (modEnt e (fun x => { x with st := .resident, cold := 0 }) s)

/-- Starts the recall of a SPILLED entry (R64, R97, R99). One that an instruction starts holds a reference of its own (`own`); a
fetch's is the fetch's (R63). -/
def startRecall (own : Bool) (e : Nat) (s : State) : State :=
  let s := modEnt e (fun x => { x with st := .recalling, recRef := own, refs := if own then x.refs + 1 else x.refs }) s
  assignJobs 8 { s with sysWait := s.sysWait ++ [.recall e] }

/-! ## Halt and abort -/

/-- SGIDX at a position (R230): that of the element that holds it, which may be the next one to fetch. -/
def sgAt (d : Dsc) (x : Xfer) (pos : Nat) : Nat :=
  if !x.sgEnd && decide (sgKnown d x ≤ pos) then x.sgn else ((x.sgs.filter fun y => y.1 ≤ pos).getLast?.map (·.2)).getD 0

/-- What becomes of a transfer that failed once nothing of it is outstanding, and the write-back of a recall's maps
(R61, R230, R232). -/
def settleChan (s : State) (i : ChanId) : State :=
  let c := chanAt s i
  let n := chanNo i
  if c.st != .active && c.st != .aborting then s
  else if c.x.failing then
    if c.st == .aborting ∧ !isSystem i then
      let p := position s n c.x
      let s := { s with inflight := s.inflight.map fun (f : Flight) => if ownerOf n f.owner then { f with owner := .gone } else f }
      let s := { s with txq := s.txq.filter fun x => x.src != some n && (match x.owner with | some o => !ownerOf n o | none => true) }
      let s := modChan i (fun c => { c with
        st := .idle, abt := true, flt := true, pend := false, resid := BitVec.ofNat 40 (chanLen c - p),
        sgidx := if c.err = 7 then c.sgidx else BitVec.ofNat 16 (sgAt c.act c.x p) }) s
      jobEnd i true (hmvEnd i s)
    else if xferBusy s n then s
    else
      let p := position s n c.x
      let s := modChan i (fun c => { c with
        st := .halted, flt := true, pend := false, resid := BitVec.ofNat 40 (chanLen c - p)
        sgidx := if c.err = 7 then c.sgidx else BitVec.ofNat 16 (sgAt c.act c.x p) }) s
      match c.job with
      | .spill .. | .recall _ => if c.st == .aborting then extentStop i s else extentFail i s
      | .gone _ => sysFree i s
      | .load _ => sysFree i (jobEnd i true s)
      | _ => jobEnd i true s
  else
    match c.job with
    | .recall e =>
      if c.st == .aborting then (if xferBusy s n then s else extentStop i s)
      else if drained s n c.x then
        allChurns (fun m s => mapFlush m e s) s
      else s
    | .spill .. | .gone _ => if c.st == .aborting ∧ !xferBusy s n then extentStop i s else s
    | _ => s

/-- Every channel. -/
def allChans : List ChanId :=
  ((List.range 64).map fun c => (.hub (BitVec.ofNat 6 c) : ChanId))
  ++ (List.range 32).flatMap fun n => (List.range 8).map fun c => .pail (BitVec.ofNat 5 n) (BitVec.ofNat 3 c)

/-- The channels that work. -/
def liveChans (s : State) : List ChanId := allChans.filter fun i => (chanAt s i).st == .active || (chanAt s i).st == .aborting

/-- The hub port (0 HBP, 1 PP) of a transfer and its place in the round-robin there: the four engines of the port, and at HBP the
snapshot and restore unit as one further requester (R236, R323). -/
def hubTurn (c : Nat) : Option (Nat × Nat) := if c < 64 then some (c / 32, c / 8 % 4) else if c = snapNo then some (0, 4) else none

/-- The requesters of a hub port. -/
def hubCount (g : Nat) : Nat := if g = 0 then 5 else 4

/-- The transfers that work: those of channels, and a snapshot's or restore's. -/
def liveXfers (s : State) : List Nat :=
  (liveChans s).map chanNo ++ if s.snap.busy || s.snap.rbusy then [snapNo] else []

/-- The working transfers in the order of their turns: at HBP and at PP the requester after the one granted last comes first (R236). -/
def turns (s : State) : List Nat :=
  let l := liveXfers s
  (List.range 2).flatMap (fun g => (List.range (hubCount g)).flatMap fun k =>
    l.filter fun c => hubTurn c == some (g, (mget 0 s.hubLast g + k) % hubCount g))
  ++ l.filter fun c => (hubTurn c).isNone

/-- Whether a hub port granted a request between two states. -/
def granted (g : Nat) (s t : State) : Bool := (t.sent.drop s.sent.length).any fun m => m.port == if g = 0 then .hbp else .pp

/-- A turn of a transfer; a requester whose hub port has granted it a request is followed by the next one (R236). -/
def takeTurn (c : Nat) (s : State) : Option State :=
  (xferTurn c 65536 s).map fun t =>
    match hubTurn c with
    | some (g, k) => if granted g s t then { t with hubLast := mset 0 t.hubLast g ((k + 1) % hubCount g) } else t
    | none => t

/-- A round of turns, and whether some transfer did something. -/
def moversRound (s : State) : Bool × State :=
  (turns s).foldl (fun x c => match takeTurn c x.2 with | some t => (true, t) | none => x) (false, s)

/-- Rounds of turns until no transfer can do anything, at most `k`. -/
def moversLoop : Nat → State → State
  | 0, s => s
  | k + 1, s =>
    let x := moversRound s
    if x.1 then moversLoop k x.2 else x.2

/-- Every transfer goes on, the requesters in turn, and channels that failed stop. -/
def moversGo (s : State) : State :=
  let t := moversLoop 65536 s
  (liveChans t).foldl settleChan t

/-- ABORT_COMPLETE's effect: the current burst of an ABORTING channel is written (R232). -/
def abortEnd (i : ChanId) (s : State) : State :=
  let c := chanAt s i
  if c.st != .aborting || isSystem i || xferBusy s (chanNo i) || !(mget [] c.x.arr c.x.apos).isEmpty
      || (!c.x.out.isEmpty && tailOut s (chanNo i) c.x && !c.x.dst.isEmpty) then s
  else
    let p := position s (chanNo i) c.x
    let s := modChan i (fun c => { c with st := .idle, abt := true, pend := false, resid := BitVec.ofNat 40 (chanLen c - p) }) s
    jobEnd i false (hmvEnd i s)

/-! ## Commands -/

/-- The CTL register of a channel. -/
def ctlOff (i : ChanId) : Nat := Reg.off (.chan i 6)

/-- Refuses a write of CTL (R213, R233). -/
def refuseCtl (o : Org) (i : ChanId) (v : Word) (s : State) : State := refuseWrite o (ctlOff i) 0 v s

/-- GO by state (R213, R233). -/
def chanGoOp (o : Org) (i : ChanId) (v : Word) (s : State) : State :=
  let c := chanAt s i
  if !hostOwned s i then refuseCtl o i v s
  else
    match c.st with
    | .idle => chanLaunch i .none s
    | .queued | .active => if c.pend then refuseCtl o i v s else modChan i (fun c => { c with pend := true }) s
    | _ => refuseCtl o i v s

/-- What a HALTED transfer resumes from: its position, from the failed request on (R230, R233). A sealed unit sent to a peer starts afresh
unless its seal record has been issued, and a tag unit follows its group (R335, R338); with every byte written, a read-back that
answered OK is not repeated. -/
def resumeX (s : State) (i : ChanId) : Xfer :=
  let c := chanAt s i
  let x := c.x
  let p := chanLen c - c.resid.toNat
  let w := firstOpen s (chanNo i) x
  let ok := x.barOk && decide (p = chanLen c)
  { base := if x.cover = .sealPeer then x.base + w / 4160 * 4096 else p
    tags := x.tags, failing := true, last := x.last, barred := ok, barOk := ok, tagDue := onTag x w }

/-- RESUME by state: the transfer restarts at its position (R230, R233). -/
def chanResumeOp (o : Org) (i : ChanId) (v : Word) (s : State) : State :=
  let c := chanAt s i
  if isSystem i then refuseCtl o i v s
  else
    match c.st with
    | .halted =>
      enqueueChan i (modChan i (fun c => { c with x := resumeX s i, runs := c.runs + 1 }) s)
    | _ => refuseCtl o i v s

/-- CLR by state (R233). -/
def chanClrOp (o : Org) (i : ChanId) (v : Word) (s : State) : State :=
  if isSystem i then refuseCtl o i v s
  else
    match (chanAt s i).st with
    | .idle => s
    | .halted => hmvEnd i (modChan i (fun c => { c with st := .idle }) s)
    | _ => refuseCtl o i v s

/-- ABORT by state (R232, R233). -/
def chanAbortOp (o : Org) (i : ChanId) (v : Word) (s : State) : State :=
  if isSystem i then refuseCtl o i v s
  else
    match (chanAt s i).st with
    | .queued =>
      jobEnd i false (hmvEnd i (modChan i (fun c => { c with st := .idle, abt := true, resid := c.act.len.setWidth 40, pend := false }) s))
    | .active => moversGo (modChan i (fun c => { c with st := .aborting }) s)
    | .halted => hmvEnd i (modChan i (fun c => { c with st := .idle, abt := true }) s)
    | _ => s

/-- A write of CTL: the first of ABORT, CLR, RESUME and GO acts (R233). -/
def chanCtl (o : Org) (i : ChanId) (v : Word) (s : State) : State :=
  if bit v 3 then chanAbortOp o i v s
  else if bit v 2 then chanClrOp o i v s
  else if bit v 1 then chanResumeOp o i v s
  else if bit v 0 then chanGoOp o i v s
  else s

/-- A control-port access to churn `n`'s registers: it wakes the churn and waits for it (R15, R356). -/
def churnGate (n : Nat) (c : Instr) (f : State → Out) (s : State) : Out :=
  hostGate c (fun s => if (churnAt s n).pwr == .active then f s else done (hold c (wake n s))) s

/-- A control-port access to a channel's registers. -/
def chanGate (i : ChanId) (c : Instr) (f : State → State) (s : State) : Out :=
  match i with
  | .hub _ => hostGate c (fun s => done (f s)) s
  | .pail n _ => churnGate n.toNat c (fun s => done (f s)) s

/-- GO, R233. -/
def execGo (o : Org) (c : ChanId) (s : State) : Out := chanGate c (.go o c) (chanGoOp o c 1) s
/-- RESUME, R233. -/
def execResume (o : Org) (c : ChanId) (s : State) : Out := chanGate c (.resume o c) (chanResumeOp o c 2) s
/-- CLR, R233. -/
def execClr (o : Org) (c : ChanId) (s : State) : Out := chanGate c (.clr o c) (chanClrOp o c 4) s
/-- ABORT, R232. -/
def execAbort (o : Org) (c : ChanId) (s : State) : Out := chanGate c (.abort o c) (chanAbortOp o c 8) s

/-- CHANNEL_START, R235. -/
def execChannelStart (c : ChanId) (s : State) : Out :=
  inner (fun s => if (chanAt s c).st == .queued && canStart s c then moversGo (settleChan (startChan c s) c) else s) s

/-- ABORT_COMPLETE, R232. -/
def execAbortComplete (c : ChanId) (s : State) : Out := inner (abortEnd c) s

/-- TRANSFER_COMPLETE, R226: for a transfer of a descriptor. -/
def execTransferComplete (c : ChanId) (s : State) : Out :=
  inner (fun s =>
    let isExt := match (chanAt s c).job with | .spill .. | .recall _ => true | _ => false
    if !isExt && xferDone s (chanNo c) then
      let s := transferEnd c s
      if isSystem c then assignJobs 8 s else s
    else s) s

/-- SPILL_COMPLETE, R72. -/
def execSpillComplete (e : BitVec 17) (s : State) : Out := inner (spillEnd e.toNat) s

/-- RECALL_COMPLETE, R72. -/
def execRecallComplete (e : BitVec 17) (s : State) : Out := inner (recallEnd e.toNat) s

/-- A write of MV_HOWN: bits of channels that are not IDLE keep their value (R213, R215). -/
def hownWrite (o : Org) (v : Word) (s : State) : State :=
  let old := rd s .mvHown
  let m := sizeMask o.size &&& (Reg.desc .mvHown).rw
  let want := (v &&& m) ||| (old &&& ~~~ m)
  let keep := (List.range 64).foldl (fun (a : Word) c =>
    if bit (want ^^^ old) c && (chanAt s (.hub (BitVec.ofNat 6 c))).st != .idle then a ||| BitVec.ofNat 64 (2 ^ c) else a) 0
  let new := (want &&& ~~~ keep) ||| (old &&& keep)
  let s := wr s .mvHown new
  if keep = 0 then logWrite o (Reg.off .mvHown) 0 old new s
  else illegalReg (Reg.off .mvHown) (logWrite o (Reg.off .mvHown) 2 old v s)

/-- MV_HOWN_WRITE, R215. -/
def execMvHownWrite (o : Org) (v : Word) (s : State) : Out := hostGate (.mvHownWrite o v) (fun s => done (hownWrite o v s)) s

end Sys2Proof.Machine
end

