-- ==== Sys2Proof/Machine/SepDir.lean ====
section
/-! DEFINITION. The directory instructions of the separator (R93 to R97). -/

namespace Sys2Proof.Machine

/-- ILLEGAL_OP of an instruction that names entry `e`. -/
def badEntry (e : Nat) : SepRes := .trap 0x14 (some (BitVec.ofNat 32 e)) (some e) false

/-- DIR_MISS of an instruction that names entry `e` (R93). -/
def missEntry (e : Nat) : SepRes := .trap 7 (some (BitVec.ofNat 32 e)) (some e) false

/-- An instruction on the entry that a register names: the index must exist and the entry must not be FREE (R93). -/
def onEntry (a : Word) (s : State) (f : Nat → Entry → SepRes) : SepRes :=
  if a.toNat ≥ 131072 then .trap 0x14 (some (a.setWidth 32)) none false
  else if (entAt s a.toNat).st == .free then missEntry a.toNat
  else f a.toNat (entAt s a.toNat)

/-! ## Creation -/

/-- map_len of a descriptor (R94, R243). A low-rank tensor whose context declares rank 0 has K = 0, and R94 then states no length: the
length is free (DESIGN CHOICE, log entry 76). -/
def descLen (s : State) (t : Desc) : Nat :=
  let k := fmtK t.fmt (ctxAt s t.ctx).rank
  if k = 0 then Config.freeMapLen s.freeCtr else mapLen s t.chmask t.swt t.nblk k

/-- The counter moves past a free length. -/
def lenTaken (t : Desc) (s : State) : State := if fmtK t.fmt (ctxAt s t.ctx).rank = 0 then tickFree s else s

/-- Whether a descriptor may create its entry (R94, R243). -/
def canCreate (s : State) (t : Desc) : Bool :=
  (entAt s t.entry).st == .free && t.chmask != 0 && !fmtReserved t.fmt && !(dealSeq s t.chmask t.swt).isEmpty
  && decide (descLen s t ≤ 16777215)

/-- The entry a descriptor creates (R94, R242). -/
def newEntry (s : State) (t : Desc) (st : ESt) (len base : Nat) : Entry :=
  { st := st, fmt := BitVec.ofNat 4 t.fmt, cur := BitVec.ofNat 4 t.fmt, floor := BitVec.ofNat 4 t.floorFmt, lsl := t.lsl,
    pin := t.pin, recipe := BitVec.ofNat 16 t.recipe, mapLen := BitVec.ofNat 24 len, mapBase := BitVec.ofNat 18 base,
    need := BitVec.ofNat 32 t.need, epoch := s.step.depoch, layer := BitVec.ofNat 16 t.layer, chmask := t.chmask,
    swt := BitVec.ofNat 4 t.swt, rank := (ctxAt s t.ctx).rank }

/-- mkent once its checks have passed: the entry gets `len` blocks of map pages. While no run of them is free it holds issue with that
length, and CELLAR_FULL is raised once (R60, R94). -/
def mkentMap (t : Desc) (len : Nat) (s : State) : SepRes :=
  match mapAlloc s len with
  | some p => .done (setEnt s t.entry (newEntry s t .filling len p))
  | none =>
    .wait 3 (if s.sep.mapStall.isSome then s
      else let s := cellarFull 0 (some t.entry) s; { s with sep := { s.sep with mapStall := some len } })

/-- mkent's body (R94): the checks and the length are taken once, before it waits for map pages. -/
def mkentBody (t : Desc) (s : State) : SepRes :=
  match s.sep.mapStall with
  | some len => mkentMap t len s
  | none =>
    if s.step.sweep then .wait 0xD s
    else if !canCreate s t then badEntry t.entry
    else mkentMap t (descLen s t) (lenTaken t s)

/-- MKENT, R94. -/
def execMkent (g : Guard) (t : BitVec 4) (s : State) : Out := issue (.mkent g t) g (fun s => mkentBody (tR s t) s) s

/-- mkdrop's body (R94). -/
def mkdropBody (t : Desc) (s : State) : SepRes :=
  if s.step.sweep then .wait 0xD s
  else if !canCreate s t || t.recipe == 0 then badEntry t.entry
  else .done (setEnt (lenTaken t s) t.entry (newEntry s t .dropped 0 0))

/-- MKDROP, R94. -/
def execMkdrop (g : Guard) (t : BitVec 4) (s : State) : Out := issue (.mkdrop g t) g (fun s => mkdropBody (tR s t) s) s

/-! ## Fields -/

/-- An entry with field `x` set from a register (R95). -/
def dsetField (x : Nat) (v : Word) (y : Entry) : Entry :=
  match x with
  | 0 => { y with need := v.setWidth 32 }
  | 1 => { y with recipe := v.setWidth 16 }
  | 2 => { y with pin := bit v 0 }
  | 3 => { y with floor := v.setWidth 4 }
  | _ => { y with layer := v.setWidth 16 }

/-- DSET, R95. -/
def execDset (g : Guard) (a b : BitVec 6) (x : BitVec 3) (s : State) : Out :=
  issue (.dset g a b x) g (fun s =>
    onEntry (gR s a) s fun e y =>
      if y.st == .released || (x == 1 && y.st == .dropped && fld (gR s b) 15 0 == 0) then badEntry e
      else .done (modEnt e (dsetField x.toNat (gR s b)) s)) s

/-- DRD, R96. -/
def execDrd (g : Guard) (d a : BitVec 6) (x : BitVec 2) (s : State) : Out :=
  issue (.drd g d a x) g (fun s => onEntry (gR s a) s fun _ y => .done (gW d (entWord y x.toNat) s)) s

/-! ## Moves -/

/-- spill's body (R65, R70, R97). -/
def spillBody (pd : BitVec 3) (a : Word) (s : State) : SepRes :=
  onEntry a s fun e y =>
    if y.st != .resident then badEntry e
    else if y.refs != 0 then .wait 4 s
    else if (coldAlloc s (extentUnits s e)).isNone then .done (pW pd false (cellarFull 1 (some e) s))
    else .done (pW pd true (assignJobs 8 (startSpill e false s)))

/-- SPILL, R97. -/
def execSpill (g : Guard) (pd : BitVec 3) (a : BitVec 6) (s : State) : Out :=
  issue (.spill g pd a) g (fun s => spillBody pd (gR s a) s) s

/-- recall's body (R63, R97). -/
def recallBody (a : Word) (s : State) : SepRes :=
  onEntry a s fun e y =>
    match y.st with
    | .spilled => if y.refs == 255 then .wait 4 s else .done (startRecall true e s)
    | .resident | .recalling => .done s
    | _ => badEntry e

/-- RECALL, R97. -/
def execRecall (g : Guard) (a : BitVec 6) (s : State) : Out := issue (.recall g a) g (fun s => recallBody (gR s a) s) s

/-- drop's body (R65, R97). -/
def dropBody (a : Word) (s : State) : SepRes :=
  onEntry a s fun e y =>
    if y.st != .resident || y.recipe == 0 then badEntry e
    else if y.refs != 0 then .wait 4 s
    else .done (dropEntry e s)

/-- DROP, R97. -/
def execDrop (g : Guard) (a : BitVec 6) (s : State) : Out := issue (.drop g a) g (fun s => dropBody (gR s a) s) s

/-- Whether an entry holds a deferred fetch slot (R97). -/
def hasDeferred (s : State) (e : Nat) : Bool := s.deferred.any fun d => d.2.entry == e

/-- Takes an entry from any state to RELEASED: its storage is returned, a re-encode, spill or recall of it stops, and the ladder is
evaluated where that ended an action of its own (R64, R74, R97). -/
def releaseEntry (e : Nat) (s : State) : State :=
  let moving := (entAt s e).st == .spilling || (entAt s e).st == .recalling
  let o := reencOf s e
  let t := match o with | some o => dropRef e (reencLeave o s) | none => s
  let gone (x : Entry) : Entry := { x with st := .released, sectors := 0 }
  evalEnded s (
    if moving then extentRelease e (modEnt e gone t)
    else settleRefs e (modEnt e (fun x => { gone x with cold := 0 }) (returnStorage e t)))

/-- rel's body (R64, R97). -/
def relBody (a : Word) (s : State) : SepRes :=
  onEntry a s fun e y =>
    if y.st == .filling || y.st == .released || hasDeferred s e then badEntry e else .done (releaseEntry e s)

/-- REL, R97. -/
def execRel (g : Guard) (a : BitVec 6) (s : State) : Out := issue (.rel g a) g (fun s => relBody (gR s a) s) s

end Sys2Proof.Machine
end

