-- ==== Sys2Proof/Machine/SepStream.lean ====
section
/-! DEFINITION. The instructions that hand work to the churns: stin, stout, cop and upd (R98 to R101, R242, R248, R251 to
R253, R294), and the deferred fetches (R99). -/

namespace Sys2Proof.Machine

/-! ## Enqueueing -/

/-- Whether every churn of a mask has a credit of its op queue (R22, R86). -/
def creditsAll (s : State) (m : BitVec 32) : Bool := (maskList m).all fun n => (churnAt s n).credit != 0

/-- Takes one credit of every churn of a mask (R86). -/
def takeCredits (m : BitVec 32) (s : State) : State :=
  (maskList m).foldl (fun s n => modChurn n (fun c => { c with credit := c.credit - 1 }) s) s

/-- Sends an op on its way to the queue of every churn of its descriptor's mask. -/
def sendOps (o : ChurnOp) (s : State) : State :=
  (maskList o.desc.chmask).foldl (fun s n => modChurn n (fun c => { c with coming := c.coming ++ [o] }) s) s

/-- The hub's record of an op that issues, with its deadline and time base (R259). -/
def newTask (s : State) (o : ChurnOp) (deadline : Nat) : Task :=
  { id := o.id, op := o, left := o.desc.chmask, deadline := deadline, base := s.layerStart }

/-- Issues an op: it gets its number and its record, and every churn's credit is taken (R86). -/
def issueOp (o : ChurnOp) (deadline : Nat) (s : State) : State :=
  takeCredits o.desc.chmask { s with nextId := s.nextId + 1, tasks := s.tasks ++ [newTask s o deadline] }

/-- Places one op in the queue of every churn of its mask. -/
def enqueueOp (o : ChurnOp) (deadline : Nat) (s : State) : State :=
  let o := { o with id := s.nextId }
  sendOps o (issueOp o deadline s)

/-- Adds to REFS of an entry (R63). -/
def addRef (e : Nat) (s : State) : State := modEnt e (fun x => { x with refs := x.refs + 1 }) s

/-- ILLEGAL_OP of an instruction that names no entry. -/
def badOp : SepRes := .trap 0x14 none none false

/-! ## stin -/

/-- The checks of stin on its entry and context (R98, R242). -/
def stinOk (s : State) (t : Desc) : Bool :=
  let x := entAt s t.entry
  let c := ctxAt s t.ctx
  x.st == .filling && !x.stin && c.st == .opened && c.kind == 0 && t.chmask == x.chmask && t.swt == x.swt.toNat

/-- The op stin places (R98). -/
def stinOp (s : State) (t : Desc) (ga : Word) : ChurnOp :=
  let x := entAt s t.entry
  let c := ctxAt s t.ctx
  { kind := .sin, desc := t, ga := ga, fmt := x.fmt, cur := x.cur, lsl := x.lsl, mask := x.chmask, swt := x.swt,
    elems := c.elems, rank := c.rank }

/-- stin's body (R63, R86, R98). -/
def stinBody (t : Desc) (ga : Word) (s : State) : SepRes :=
  let e := t.entry
  let x := entAt s e
  let c := ctxAt s t.ctx
  if x.st == .free then missEntry e
  else if !stinOk s t then badEntry e
  else if x.refs == 255 then .wait 4 s
  else if !creditsAll s t.chmask then .wait 2 s
  else .done (enqueueOp (stinOp s t ga) ga.toNat
    (modEnt e (fun x => { x with refs := x.refs + 1, stin := true, elems := c.elems, rank := c.rank }) s))

/-- STIN, R98. -/
def execStin (g : Guard) (t : BitVec 4) (a : BitVec 6) (s : State) : Out :=
  issue (.stin g t a) g (fun s => stinBody (tR s t) (gR s a) s) s

/-! ## stout -/

/-- The chain a descriptor names, as its register holds it (R181). -/
def chainOf (s : State) (t : Desc) : List (Nat × Nat) :=
  if t.chain = 0 then [] else stepsOf (rd s (.chainSteps t.chain))

/-- The elements a stout delivers from its entry: the context's, or all of the entry's rows under IDX (R240, R252). -/
def stoutElems (s : State) (t : Desc) : Nat :=
  let c := ctxAt s t.ctx
  if c.kind = 1 ∧ c.idx then (entAt s t.entry).elems else c.elems

/-- The delivered bytes of `k` elements of a stout (R117, R248). -/
def stoutBytes (s : State) (t : Desc) (k : Nat) : Nat :=
  let x := entAt s t.entry
  outBytes (chainOf s t) x.fmt.toNat x.rank k

/-- The delivered bytes of a stout's whole tensor. -/
def stoutTotal (s : State) (t : Desc) : Nat :=
  let k := (ctxAt s t.ctx).elems
  if frames k = 0 then 0
  else (frames k - 1) * stoutBytes s t frameElems + stoutBytes s t (frameLen k (frames k - 1))

/-- The tiles a stout is given (R248, R252). -/
def stoutTiles (s : State) (t : Desc) : Nat :=
  let c := ctxAt s t.ctx
  if c.kind ≠ 1 ∨ c.tile = 0 then 0
  else if c.idx then c.elems / t.row
  else cdiv (stoutTotal s t) c.tile

/-- IDX's checks (R252). -/
def idxOk (s : State) (t : Desc) : Bool :=
  let c := ctxAt s t.ctx
  t.row != 0 && frameElems % t.row == 0 && c.elems % t.row == 0
  && rowBytes (chainOf s t) (entAt s t.entry).fmt.toNat t.row == some c.tile
  && decide (c.idxAddr + 4 * (c.elems / t.row) ≤ dmSize)

/-- MEM's range check: no churn's delivered share reaches 96 GiB or meets the cellar (R251). -/
def memRangeOk (s : State) (t : Desc) : Bool :=
  let c := ctxAt s t.ctx
  let x := entAt s t.entry
  let seq := dealSeq s x.chmask x.swt.toNat
  (maskList x.chmask).all fun n =>
    let len := shareBytes seq n (frames c.elems) (stoutBytes s t frameElems)
      (stoutBytes s t (frameLen c.elems (frames c.elems - 1)))
    len == 0 || (decide (c.half 0 + len ≤ stackEnd) && !meetsCellar s (c.half 0) len)

/-- The rows of a tensor of `elems` elements that begin in the frames of churn `n`. -/
def homedRows (seq : List Nat) (n row elems : Nat) : Nat :=
  ((List.range (frames elems)).filter fun f => stripeChurn seq f == n).foldl
    (fun a f => a + (cdiv (min ((f + 1) * frameElems) elems) row - cdiv (f * frameElems) row)) 0

/-- The bytes of row results that churn `n` delivers for a stout with STATOUT: 8 for each row it is the home of and each such step
(R176, R184); under IDX as many as all rows would take, since the hub reads the indices later (log entry 67). -/
def statBytes (s : State) (t : Desc) (n : Nat) : Nat :=
  let x := entAt s t.entry
  let c := ctxAt s t.ctx
  8 * ((chainOf s t).filter statStep).length
    * (if c.kind = 1 ∧ c.idx then c.elems / t.row else homedRows (dealSeq s x.chmask x.swt.toNat) n t.row c.elems)

/-- The checks of context CTX + 1 for a stout whose chain has STATOUT (R184, R242, R251, R253; log entry 67). -/
def statOk (s : State) (t : Desc) : Bool :=
  let c := ctxAt s (t.ctx + 1)
  !(chainOf s t).any statStep
  || (decide (t.ctx + 1 < 16384) && c.st == .opened
      && (match c.kind with
          | 1 => !c.fwd
          | 2 => true
          | 3 => (maskList (entAt s t.entry).chmask).all fun n =>
              let len := statBytes s t n
              len == 0 || (decide (c.half 0 + len ≤ stackEnd) && !meetsCellar s (c.half 0) len)
          | _ => false))

/-- The checks of every stout, whatever its entry's state (R242): the context is OPEN and OUT, LOCAL or MEM, and the
stripe is the one recorded with the entry. -/
def stoutCtxOk (s : State) (t : Desc) : Bool :=
  let x := entAt s t.entry
  let c := ctxAt s t.ctx
  c.st == .opened && (c.kind == 1 || c.kind == 2 || c.kind == 3) && t.chmask == x.chmask && t.swt == x.swt.toNat

/-- The checks of a stout that places ops (R242, R248, R251 to R253). -/
def stoutOk (s : State) (t : Desc) : Bool :=
  let c := ctxAt s t.ctx
  stoutCtxOk s t && statOk s t
  && (match c.kind with
      | 1 => !c.fwd && (if c.idx then idxOk s t else c.tile == 0 || stoutBytes s t frameElems % c.tile == 0)
      | 2 => true
      | 3 => memRangeOk s t
      | _ => false)

/-- The op stout places (R99, R248); `n` is its number. -/
def stoutOp (s : State) (t : Desc) (ga : Word) (n : Nat) : ChurnOp :=
  let x := entAt s t.entry
  { id := n, kind := .sout, desc := t, ga := ga, fmt := x.fmt, cur := x.cur, lsl := x.lsl, mask := x.chmask, swt := x.swt,
    elems := stoutElems s t, rank := x.rank, tile0 := (ctxAt s t.ctx).pos.toNat,
    issued := if t.chain = 0 then 0 else rd s (.chainSteps t.chain) }

/-- The context's tile position moves on past the tiles an op was given (R248). -/
def advancePos (i m : Nat) (s : State) : State :=
  let c := ctxAt s i
  setCtx s i { c with pos := c.pos + BitVec.ofNat 40 m }

/-- The lowest free deferred fetch slot. -/
def freeDefer (s : State) : Option Nat := (List.range 64).find? fun k => (s.deferred.find? fun d => d.1 == k).isNone

/-- stout's body on an entry that is not DROPPED: what is missing for it, or its effect (R63, R86, R99). -/
def stoutFetch (t : Desc) (ga : Word) (s : State) : SepRes :=
  let e := t.entry
  let x := entAt s e
  let defer := x.st == .spilled || x.st == .recalling || reencoding s e
  if !stoutOk s t then badEntry e
  else if x.refs == 255 then .wait 4 s
  else if !creditsAll s t.chmask then .wait 2 s
  else
    let o := stoutOp s t ga s.nextId
    let go (s : State) : State := advancePos t.ctx (stoutTiles s t) (addRef e (issueOp o ga.toNat s))
    if !defer then .done (sendOps o (go s))
    else
      match freeDefer s with
      | none => .wait 0xB s
      | some k =>
        let s := go s
        let s := { s with deferred := mset {} s.deferred k { op := o, entry := e } }
        .done (if x.st == .spilled then bumpCel 4 (startRecall false e s) else s)

/-- stout's body on a DROPPED entry: a ticket (R99, R119). Its context is checked as every stout's is (R242; DEDUCED,
log 23). -/
def stoutTicket (t : Desc) (ga : Word) (s : State) : SepRes :=
  let x := entAt s t.entry
  if !stoutCtxOk s t then badEntry t.entry else
  match freeSlot s with
  | none => .wait 6 s
  | some i =>
    if !ccpReady s then .wait 0xC s
    else .done (sendTicket i t.entry x.recipe.toNat x.layer.toNat t true ga s)

/-- stout's body (R99). -/
def stoutBody (t : Desc) (ga : Word) (s : State) : SepRes :=
  match (entAt s t.entry).st with
  | .free => missEntry t.entry
  | .filling | .released => badEntry t.entry
  | .dropped => stoutTicket t ga s
  | _ => stoutFetch t ga s

/-- STOUT, R99. -/
def execStout (g : Guard) (t : BitVec 4) (a : BitVec 6) (s : State) : Out :=
  issue (.stout g t a) g (fun s => stoutBody (tR s t) (gR s a) s) s

/-- Enqueues a deferred fetch whose entry is RESIDENT and not under re-encode, or whose recall failed: then its task is
aborted (R64, R66, R99, R263). -/
def deferEnqueue (k : Nat) (s : State) : State :=
  match s.deferred.find? fun d => d.1 == k with
  | none => s
  | some (_, d) =>
    let x := entAt s d.entry
    let o := { d.op with cur := x.cur }
    let free (s : State) : State := { s with deferred := mdel s.deferred k }
    if d.failed then sendOps o (abortTasks [o.id] o.desc.ctx (lowest o.desc.chmask) 3 0 (free s))
    else if x.st == .resident && !reencoding s d.entry then
      let s := { s with tasks := lmod (fun t => t.id == o.id) (fun t => { t with op := o }) s.tasks }
      sendOps o (free s)
    else s
where
  /-- The lowest churn of a mask. -/
  lowest (m : BitVec 32) : Nat := (maskList m).headD 0

/-- DEFERRED_FETCH_ENQUEUE, R99. -/
def execDeferredFetchEnqueue (slot : BitVec 6) (s : State) : Out := inner (deferEnqueue slot.toNat) s

/-! ## cop and upd -/

/-- Whether a context is OPEN and a source of a cop op: IN or LOCAL (R242). -/
def copIn (s : State) (i : Nat) : Bool := (ctxAt s i).st == .opened && ((ctxAt s i).kind == 0 || (ctxAt s i).kind == 2)

/-- Whether a context is OPEN and takes the output of a cop op: OUT with TILE = 0 and FWD = 0, or MEM (R242, R253). -/
def copSink (s : State) (i : Nat) : Bool :=
  let c := ctxAt s i
  c.st == .opened && ((c.kind == 1 && c.tile == 0 && !c.fwd) || c.kind == 3)

/-- The checks of cop's contexts (R188, R242); a reserved op code names none. -/
def copOk (s : State) (t : Desc) (ga : Word) : Bool :=
  match fld ga 7 0 with
  | 1 => copIn s t.ctx
  | 2 =>
    copIn s t.ctx && (ctxAt s (fld ga 21 8)).st == .opened && (ctxAt s (fld ga 21 8)).kind == 2 && copSink s (fld ga 39 26)
  | 3 => copIn s t.ctx && copSink s (fld ga 21 8)
  | _ => true

/-- The op cop places (R100, R242). -/
def copOp (s : State) (t : Desc) (ga : Word) : ChurnOp :=
  let c := ctxAt s t.ctx
  { kind := .cop, desc := t, ga := ga, fmt := BitVec.ofNat 4 t.fmt, cur := BitVec.ofNat 4 t.fmt, mask := c.chmask,
    swt := BitVec.ofNat 4 c.swt, elems := c.elems, rank := c.rank }

/-- cop's body (R100). -/
def copBody (t : Desc) (ga : Word) (s : State) : SepRes :=
  if t.chmask == 0 || !copOk s t ga then badOp
  else if !creditsAll s t.chmask then .wait 2 s
  else .done (enqueueOp (copOp s t ga) (ctxAt s t.ctx).deadline s)

/-- COP, R100. -/
def execCop (g : Guard) (t : BitVec 4) (a : BitVec 6) (s : State) : Out :=
  issue (.cop g t a) g (fun s => copBody (tR s t) (gR s a) s) s

/-- The checks of upd (R293, R294). -/
def updOk (s : State) (t : Desc) : Bool :=
  let p := prm s (t.layer % 256)
  let c := ctxAt s t.ctx
  t.layer < 256 && p.en && c.st == .opened && c.kind == 0 && decide (c.etype ≤ 0xA)
  && c.chmask == p.mask && c.swt == p.swt && t.chmask == p.mask && c.elems % frameElems == 0
  && t.need % (prmSeq s p).length == 0 && decide (t.need + c.elems / frameElems ≤ p.nfr)
  && s.step.open_ && !s.step.rdyIssued

/-- The op upd places (R101, R293). -/
def updOp (s : State) (t : Desc) (ga : Word) : ChurnOp :=
  let c := ctxAt s t.ctx
  { kind := .upd, desc := t, ga := ga, fmt := BitVec.ofNat 4 c.etype, mask := c.chmask, swt := BitVec.ofNat 4 c.swt,
    elems := c.elems }

/-- upd's body (R101, R294). -/
def updBody (t : Desc) (ga : Word) (s : State) : SepRes :=
  if !updOk s t then badOp
  else if !creditsAll s t.chmask then .wait 2 s
  else .done (enqueueOp (updOp s t ga) (ctxAt s t.ctx).deadline s)

/-- UPD, R294. -/
def execUpd (g : Guard) (t : BitVec 4) (a : BitVec 6) (s : State) : Out :=
  issue (.upd g t a) g (fun s => updBody (tR s t) (gR s a) s) s

end Sys2Proof.Machine
end

