-- ==== Sys2Proof/Machine/SepSync.lean ====
section
/-! DEFINITION. Tickets, semaphores, fences and hub movers as the separator uses them (R102 to R106). -/

namespace Sys2Proof.Machine

/-! ## Tickets -/

/-- A ticket number: slot and sequence (R102). -/
def ticketNo (s : State) (i : Nat) : Word := pack [(8, (ticketAt s i).seq.toNat), (0, i)]

/-- tkt's body (R86, R102). -/
def tktBody (d : BitVec 6) (t : Desc) (s : State) : SepRes :=
  if t.recipe == 0 then badEntry t.entry
  else
    match freeSlot s with
    | none => .wait 6 s
    | some i =>
      if !ccpReady s then .wait 0xC s
      else
        let s := sendTicket i t.entry t.recipe t.layer t false 0 s
        .done (gW d (ticketNo s i) s)

/-- TKT, R102. -/
def execTkt (g : Guard) (d : BitVec 6) (t : BitVec 4) (s : State) : Out :=
  issue (.tkt g d t) g (fun s => tktBody d (tR s t) s) s

/-- tkw's body (R102). -/
def tkwBody (a : Word) (s : State) : SepRes :=
  let k := ticketAt s (fld a 7 0)
  if k.taken && k.seq.toNat == fld a 15 8 then .wait 6 s else .done s

/-- TKW, R102. -/
def execTkw (g : Guard) (a : BitVec 6) (s : State) : Out := issue (.tkw g a) g (fun s => tkwBody (gR s a) s) s

/-! ## Semaphores -/

/-- Whether the operands of sacq and srel are in range (R103). -/
def semOperands (a b : Word) : Bool := fld a 63 12 == 0 && fld b 63 16 == 0

/-- sacq's body (R103, R249). -/
def sacqBody (a b : Word) (side : BitVec 1) (s : State) : SepRes :=
  let p := fld a 11 0
  let x := pairAt s p
  let e := side == 1
  if !semOperands a b then badOp
  else if e && (takerOf s p).isSome then badOp
  else if (semSide x e).toNat < fld b 15 0 then .wait 5 s
  else .done (setPair s p (semPut x e (semSide x e - BitVec.ofNat 16 (fld b 15 0))))

/-- SACQ, R103. -/
def execSacq (g : Guard) (a b : BitVec 6) (side : BitVec 1) (s : State) : Out :=
  issue (.sacq g a b side) g (fun s => sacqBody (gR s a) (gR s b) side s) s

/-- srel's body (R103): side 0 adds to EMPTY, side 1 to FULL; an overflow traps. -/
def srelBody (a b : Word) (side : BitVec 1) (s : State) : SepRes :=
  let p := fld a 11 0
  let e := side == 0
  if !semOperands a b then badOp
  else if !semFits s p e (fld b 15 0) then .trap 0x15 (some (BitVec.ofNat 32 (p + b1 e * 2 ^ 12))) none false
  else .done (semAdd p e (fld b 15 0) 0 s)

/-- SREL, R103. -/
def execSrel (g : Guard) (a b : BitVec 6) (side : BitVec 1) (s : State) : Out :=
  issue (.srel g a b side) g (fun s => srelBody (gR s a) (gR s b) side s) s

/-! ## Fences -/

/-- Whether churn ops or deferred fetches of the program are unfinished. -/
def churnWork (s : State) : Bool := s.tasks.any (·.prog)

/-- The hub channels. -/
def hubChans : List ChanId := (List.range 64).map fun c => .hub (BitVec.ofNat 6 c)

/-- Whether a channel works on a descriptor of the separator (R104, R233). -/
def hmvBusy (s : State) (i : ChanId) : Bool := byHmv s i && (chanAt s i).st != .idle

/-- Whether transfers that hmv started are unfinished. -/
def hubWork (s : State) : Bool := hubChans.any (hmvBusy s)

/-- Whether a ticket slot is taken. -/
def ticketWork (s : State) : Bool := s.tickets.any (·.2.taken)

/-- Whether a read-back of the program's own writes is still to be answered. -/
def readWork (s : State) : Bool := s.readback.any fun b => !b.ring && b.st != 2

/-- Issues the read-back of one target, in class SEQ (R104, R283). No Snoop is 0 (DESIGN CHOICE, log entry 83). -/
def readBack1 (s : State) (b : ReadBack) : State :=
  if b.ring || b.st != 0 then s
  else
    let m := rdMsg (if b.pp then .pp else .hbp) b.addr 1 2 false b.chip
    let s := { s with readback := lmod (· == b) (fun x => { x with st := 1 }) s.readback }
    send m (some (.sepBar b.pp b.chip)) s

/-- Issues the read-backs a GLOBAL fence still owes. -/
def readBacks (s : State) : State := s.readback.foldl readBack1 s

/-- A GLOBAL fence that is complete: its read-backs are done with. -/
def readDone (s : State) : State := { s with readback := s.readback.filter (·.ring) }

/-- Whether the work of scopes 0, 1 and 2 is unfinished. -/
def anyWork (s : State) : Bool := churnWork s || hubWork s || ticketWork s

/-- The conditions of a GLOBAL fence: none if they hold, else the state in which it waits on (R104). -/
def globalFence (s : State) : Option State :=
  if anyWork s then some s else if readWork s then some (readBacks s) else none

/-- fence's body (R104). -/
def fenceBody (scope : BitVec 2) (s : State) : SepRes :=
  match scope.toNat with
  | 0 => if churnWork s then .wait 7 s else .done s
  | 1 => if hubWork s then .wait 7 s else .done s
  | 2 => if ticketWork s then .wait 7 s else .done s
  | _ => match globalFence s with | some s => .wait 7 s | none => .done (readDone s)

/-- FENCE, R104. -/
def execFence (g : Guard) (scope : BitVec 2) (s : State) : Out := issue (.fence g scope) g (fenceBody scope) s

/-- Whether every churn op queue is empty (R105). -/
def queuesEmpty (s : State) : Bool := s.churns.toList.all fun c => c.queue.isEmpty && c.coming.isEmpty

/-- lfence's body (R105): LF_TMO is the one in force when it begins to wait. -/
def lfenceBody (i : Instr) (s : State) : SepRes :=
  match globalFence s with
  | none =>
    if queuesEmpty s then
      let s := readDone s
      .done { s with sep := { s.sep with layer := s.sep.layer + 1 } }
    else .wait 8 (begin s)
  | some s => .wait 8 (begin s)
where
  /-- Notes the timeout as the wait begins. -/
  begin (s : State) : State :=
    if s.sep.held == some i then s else { s with sep := { s.sep with lfTmo := (rd s .lfTmo).setWidth 32 } }

/-- LFENCE, R105. -/
def execLfence (g : Guard) (s : State) : Out := issue (.lfence g) g (lfenceBody (.lfence g)) s

/-- What is outstanding at a layer fence: churn ops, hub transfers, tickets, deferred fetches, read-backs (R105). -/
def outstanding (s : State) : Nat :=
  b1 (s.tasks.any fun t => t.prog && !(s.deferred.any fun d => d.2.op.id == t.id)) + 2 * b1 (hubWork s)
  + 4 * b1 (ticketWork s) + 8 * b1 (!s.deferred.isEmpty) + 16 * b1 (readWork s)

/-- Whether the separator holds issue at an lfence. -/
def atLfence (s : State) : Bool := match s.sep.held with | some (.lfence _) => true | _ => false

/-- LFENCE_TIMEOUT, R105: the held lfence traps, unless its timeout is disabled. -/
def execLfenceTimeout (s : State) : Out :=
  inner (fun s =>
    if atLfence s && s.sep.st == .running && s.sep.lfTmo != 0 then
      takeTrap 0x16 (some (BitVec.ofNat 32 (outstanding s))) none false s
    else s) s

/-! ## Hub movers -/

/-- hmv's body (R106, R213, R233). -/
def hmvBody (a b : Word) (s : State) : SepRes :=
  let c : ChanId := .hub (b.setWidth 6)
  if fld b 63 6 != 0 || a.toNat % 64 != 0 || decide (a.toNat ≥ dmSize) || isSystem c || hostOwned s c then badOp
  else if (chanAt s c).st != .idle then .wait 9 s
  else
    let w (i : Nat) : Word := dmRead s (a.toNat + 8 * i)
    let d : Dsc := { src := w 0, dst := w 1, len := w 2, cfg := w 3, sgl := w 4, sig := w 5 }
    .done (chanLaunch c (.hmv a.toNat) (modChan c (fun h => { h with sh := d }) s))

/-- HMV, R106. -/
def execHmv (g : Guard) (a b : BitVec 6) (s : State) : Out := issue (.hmv g a b) g (fun s => hmvBody (gR s a) (gR s b) s) s

/-- hwt's body (R106, R233). -/
def hwtBody (pd : BitVec 3) (a : Word) (s : State) : SepRes :=
  let c := chanAt s (.hub (a.setWidth 6))
  if c.st != .idle then .wait 9 s else .done (pW pd (c.done && !c.flt && !c.abt) s)

/-- HWT, R106. -/
def execHwt (g : Guard) (pd : BitVec 3) (a : BitVec 6) (s : State) : Out :=
  issue (.hwt g pd a) g (fun s => hwtBody pd (gR s a) s) s

end Sys2Proof.Machine
end

