-- ==== Sys2Proof/Machine/StepProt.lean ====
section
/-! DEFINITION. The step protocol (R107, R311 to R320) and snapshots and restores (R321 to R333). -/

namespace Sys2Proof.Machine

/-! ## Snapshots -/

/-- Logical 4 KiB units of an area before its parameter section (R326). -/
abbrev ctlUnits : Nat := 0x145

/-- The enabled regions, in increasing index. -/
def enabledPrms (s : State) : List Prm := ((List.range 256).map (prm s)).filter (·.en)

/-- The shares of the parameter section, in order: region, churn and stack-local address of each (R326). `live` is the
buffer of the regions without EMB. -/
def prmShares (s : State) (live : Nat) : List (Prm × Nat × Nat) :=
  (enabledPrms s).flatMap fun p =>
    ((maskList p.mask).filter fun n => weight s p.swt n != 0).flatMap fun n =>
      (if p.emb then [p.b0, p.b1] else [if live % 2 = 0 then p.b0 else p.b1]).map fun b => (p, n, localOf b)

/-- A share's bytes in an area (R326). -/
def areaShare (p : Prm) : Nat := cdiv p.share 4096 * 4096

/-- The parameter section's size in 4 KiB units (R326). -/
def sectionUnits (s : State) : Nat := (prmShares s 0).foldl (fun a x => a + cdiv x.1.share 4096) 0

/-- LAYOUT (R327). -/
def layoutCrc (s : State) : BitVec 32 :=
  crc32c ((enabledPrms s).flatMap fun p =>
    wordsBytes [rd s (.prmBuf0 p.k), rd s (.prmBuf1 p.k), p.cfg &&& 0xAFFFFFFFFFFFFFFF, p.size])

/-- Words 0 to 15 of the header (R327). -/
def headerWords (s : State) : List Word :=
  [pack [(32, (rd s .version).toNat), (0, 0x5A4B534E)], s.step.step, s.step.depoch.setWidth 64, rd s .drawKey,
   (chipId s).setWidth 64, s.sys.aon.setWidth 64]
  ++ (List.range 8).map (fun k => rd s (.schedCnt k))
  ++ [(layoutCrc s).setWidth 64, BitVec.ofNat 64 (sectionUnits s)]

/-- Two pairs in one word of the control section (R326). -/
def pairWord (s : State) (i : Nat) : Word :=
  pack [(0, (pairAt s (2 * i)).full.toNat), (16, (pairAt s (2 * i)).empty.toNat),
    (32, (pairAt s (2 * i + 1)).full.toNat), (48, (pairAt s (2 * i + 1)).empty.toNat)]

/-- Writes words into the control section from word `i` on. -/
def ctlPut (i : Nat) (l : List Word) (m : SMap Word) : SMap Word := l.zipIdx.foldl (fun m x => mset 0 m (i + x.2) x.1) m

/-- The control section: header, pairs and contexts (R326, R327). -/
def ctlImage (s : State) : SMap Word :=
  let h := headerWords s
  let m := ctlPut 0 (h ++ [(crc32c (wordsBytes h)).setWidth 64]) []
  let m := s.pairs.foldl (fun m x => mset 0 m (512 + x.1 / 2) (pairWord s (x.1 / 2))) m
  s.ctxs.foldl (fun m x =>
    ctlPut (133632 + 2 * x.1) [pack [(62, CSt.code x.2.st), (0, x.2.pos.toNat)], x.2.rel.setWidth 64]
      (ctlPut (2560 + 8 * x.1) x.2.w m)) m

/-- The base of an area. -/
def areaBase (s : State) (a : Bool) : Nat := (rd s (.snapArea (b1 a))).toNat

/-- The pieces of the parameter section in the churns' stacks. -/
def sectionPieces (s : State) (live : Nat) : List Piece :=
  ((prmShares s live).flatMap fun (p, n, a) =>
    [({ sp := .loc (BitVec.ofNat 5 n), addr := a, len := p.share } : Piece),
     { sp := .lit, addr := 0, len := areaShare p - p.share, lit := zeros (areaShare p - p.share) }]).filter fun x => x.len != 0

/-- Whether areas are covered (R334). -/
def areaCovered (s : State) : Bool := cryptMode s == 2

/-- Whether the snapshot or restore in progress found its area covered when it started: it keeps the MODE in force then (R373). -/
def snapCovered (s : State) : Bool := s.snap.x.cover != .clear

/-- Takes the requests of the snapshot's or restore's transfer away from it; it is over. -/
def snapForget (s : State) : State :=
  let s := { s with
    inflight := s.inflight.map fun (f : Flight) => if ownerOf snapNo f.owner then { f with owner := .gone } else f
    dead := s.dead.map fun (f : Flight) => if ownerOf snapNo f.owner then { f with owner := .gone } else f
    txq := s.txq.filter fun x => x.src != some snapNo && (match x.owner with | some o => !ownerOf snapNo o | none => true) }
  { s with snap := { s.snap with x := {}, ctl := [], phase := 0 } }

/-- A snapshot stops on a failure (R324). -/
def snapStop (s : State) : State :=
  let s := snapForget s
  { s with snap := { s.snap with busy := false, err := 8 } }

/-- A restore aborts (R331). -/
def restoreAbort (cause : Nat) (s : State) : State :=
  let s := raise 0x11 (recWord none 0xF9 0 5) (BitVec.ofNat 64 cause) s
  let s := snapForget s
  { s with snap := { s.snap with rbusy := false, err := 7 } }

/-- A restore ends on a failed check (R329). -/
def restoreRefuse (err code : Nat) (info : Word) (s : State) : State :=
  let s := raise code (recWord none 0xF9 0 5) info s
  let s := snapForget s
  { s with snap := { s.snap with rbusy := false, err := BitVec.ofNat 4 err } }

/-- A word of the control section read or written. -/
def ctlW (s : State) (i : Nat) : Word := mget 0 s.snap.ctl i

/-- The second part of a restore: the control section behind the header, and the shares (R330). -/
def restoreRest (s : State) : State :=
  let base := areaBase s s.snap.cur
  let u := ctlUnits + sectionUnits s
  let cov := snapCovered s
  let src : List Piece :=
    if cov then [{ sp := .cov, addr := base, len := 4096 },
                 { sp := .cov, addr := base, len := covPos (u - 1) + 4096 - covPos 1, off := covPos 1 }]
    else [{ sp := .hba, addr := base + 4096, len := (u - 1) * 4096 }]
  let x : Xfer :=
    { src := src, dst := { sp := .ctl, addr := 4096, len := (ctlUnits - 1) * 4096 } :: sectionPieces s (ctlW s 1).toNat
      cover := if cov then .openHba else .clear, base := 4096, unit := 1, uend := u, ubase := base }
  { s with snap := { s.snap with phase := 1, x := x } }

/-- The checks of a restore's header, in order (R329). -/
def restoreCheck (s : State) : State :=
  let w (i : Nat) : Word := ctlW s i
  let hdr := (List.range 16).map w
  if fld (w 0) 31 0 ≠ 0x5A4B534E ∨ fld (w 0) 63 48 ≠ fld (rd s .version) 31 16 then restoreRefuse 2 0x14 0 s
  else if fld (w 16) 31 0 ≠ (crc32c (wordsBytes hdr)).toNat ∨ w 17 ≠ w 1 then restoreRefuse 2 0x14 0 s
  else if fld (w 4) 16 0 ≠ (chipId s).toNat then restoreRefuse 3 0x14 0 s
  else if fld (w 14) 31 0 ≠ (layoutCrc s).toNat then restoreRefuse 4 0x14 0 s
  else
    let d := fld (rd s .snapDpos) 31 0
    if d ≠ fld (w 1) 31 0 then restoreRefuse 5 0x10 (pack [(32, d), (0, fld (w 1) 31 0)]) s
    else restoreRest s

/-- The transfer of a snapshot or restore goes on; a failure stops it (R323, R324, R329, R331). -/
def snapGo (s : State) : State :=
  if !s.snap.busy && !s.snap.rbusy then s
  else
    let s := moversGo s
    if s.snap.x.failing then (if s.snap.rbusy then restoreAbort 1 s else snapStop s)
    else if s.snap.rbusy && s.snap.phase == 0 && xferDone s snapNo then moversGo (restoreCheck s)
    else s

/-- Writes the DONE word of the area in class SEQ (R323). A covered area has its unit 0, with that word, and the unit's tag sealed
afresh (log entry 79). No Snoop is 0, here and in the rest of a snapshot's and a restore's traffic (DESIGN CHOICE, log entry 83). -/
def doneWrite (v : Word) (s : State) : State :=
  let base := areaBase s s.snap.cur
  if !snapCovered s then send (wrpMsg .hbp (base + 136) (wordBytes v) 2) none s
  else
    let pt := (List.range 512).flatMap fun i => wordBytes (if i = 17 then v else ctlW s i)
    let (iv, ct, tag, s) := sealUnit 0 (aadOf base 0 false (chipId s).toNat) pt s
    let s := (cuts 256 base 4096).foldl (fun s x => send (wrpMsg .hbp x.1 ((ct.drop (x.1 - base)).take x.2) 2) none s) s
    send (wrpMsg .hbp (base + 128 * 4096) (tagEntry iv tag) 2) none s

/-- Starts the snapshot of a commit (R323). -/
def snapStart (s : State) : State :=
  let a := s.snap.area
  let base := areaBase s a
  let u := ctlUnits + sectionUnits s
  let cov := areaCovered s
  let size := withTags cov u
  if size > fld (rd s (.snapAsize (b1 a))) 35 0 then
    raise 0x14 (recWord none 0xF8 0 5) 0 { s with snap := { s.snap with err := 1 } }
  else
    let x : Xfer :=
      { src := { sp := .ctl, addr := 0, len := ctlUnits * 4096 } :: sectionPieces s s.step.step.toNat
        dst := [{ sp := .hba, addr := base, len := size * 4096 }], bars := [(.hba, base + size * 4096 - 1)]
        cover := if cov then .sealHba else .clear, uend := u, ubase := base }
    let s := { s with snap := { s.snap with
      last := s.sys.aon, busy := true, due := false, err := 0, cur := a, x := x, phase := 0, ctl := ctlImage s
      was := (s.snap.last, s.snap.due, s.snap.err) } }
    match if cov then sealFail snapNo 0 base s else none with
    | some s => snapGo s
    | none => snapGo (if linkOk s .hbp then doneWrite 0 s else s)

/-- The bytes written when the last of the control section has been issued. -/
def ctlEnd (s : State) : Nat := (if snapCovered s then physUnit (ctlUnits - 1) + 1 else ctlUnits) * 4096

/-- Whether a snapshot has issued its control section, or is over (R318). -/
def ctlIssued (s : State) : Bool := !s.snap.busy || decide (ctlEnd s ≤ s.snap.x.wpos)

/-- Writes DONE := STEP (R323). -/
def snapSeal (s : State) : State := doneWrite (ctlW s 1) s

/-- SNAPSHOT_DONE, R323: once the read-back has answered OK, DONE is written and the area changes. -/
def execSnapshotDone (s : State) : Out :=
  inner (fun s =>
    if s.snap.busy && xferDone s snapNo then
      match if snapCovered s then sealFail snapNo 0 (areaBase s s.snap.cur) s else none with
      | some s => snapGo s
      | none =>
        if !linkOk s .hbp then snapGo (xferFail snapNo 2 2 true (areaBase s s.snap.cur + 136) (areaBase s s.snap.cur + 136) s)
        else
          let s := snapForget (snapSeal s)
          { s with snap := { s.snap with busy := false, area := !s.snap.cur }, evt := s.evt ||| 2 }
    else s) s

/-- DUE is set once the aon counter has reached SNAP_LAST + SNAP_INTERVAL (R322). -/
def snapDue (s : State) : State :=
  let k := (rd s .snapInterval).toNat
  if k != 0 && decide (s.snap.last.toNat + k ≤ s.sys.aon.toNat) then { s with snap := { s.snap with due := true } } else s

/-- SNAP_DUE, R322. -/
def execSnapDue (s : State) : Out := inner snapDue s

/-! ## Restores -/

/-- Whether a restore may start (R328). -/
def restoreOk (s : State) : Bool :=
  s.sys.mode == 4 && s.sep.st == .halted && !s.step.open_ && s.tasks.isEmpty
  && (hubChans.all fun i => (chanAt s i).st == .idle || (chanAt s i).st == .halted)
  && !s.snap.busy && s.dir.isEmpty && !s.snap.rbusy

/-- Starts a restore: the header is read (R328, R329). -/
def restoreStart (a : Bool) (s : State) : State :=
  let base := areaBase s a
  let cov := areaCovered s
  let x : Xfer :=
    { src := if cov then [{ sp := .cov, addr := base, len := 8192 }] else [{ sp := .hba, addr := base, len := 4096 }]
      dst := [{ sp := .ctl, addr := 0, len := 4096 }]
      cover := if cov then .openHba else .clear, uend := ctlUnits, ubase := base }
  let s := { s with snap := { s.snap with rbusy := true, err := 0, cur := a, x := x, phase := 0, ctl := [] } }
  snapGo (if cov && !(keyAt s 0).valid then cryptFail snapNo 1 0x12 0 base s else s)

/-- A write of SNAP_CMD (R328, R331, R332). -/
def snapCmd (o : Org) (v : Word) (s : State) : State :=
  let refuse (s : State) : State :=
    refuseWrite o (Reg.off .snapCmd) 0 v { s with snap := { s.snap with err := 6 } }
  match fld v 1 0 with
  | 1 => if restoreOk s then restoreStart (bit v 2) s else refuse s
  | 2 => if s.snap.rbusy then restoreAbort 3 s else logWrite o (Reg.off .snapCmd) 1 0 v s
  | 3 => refuse s
  | _ => s

/-- RESTORE, R328. -/
def execRestore (o : Org) (area : Bool) (s : State) : Out :=
  hostGate (.restore o area) (fun s => done (logIf o .snapCmd s (snapCmd o (pack [(2, b1 area), (0, 1)]) s))) s

/-- The pairs of a restored control section. -/
def restoredPairs (s : State) : SMap Pair :=
  (List.range 4096).foldr (fun p m =>
    let w := ctlW s (512 + p / 2)
    let x : Pair := { full := BitVec.ofNat 16 (fld w (32 * (p % 2) + 15) (32 * (p % 2))),
                      empty := BitVec.ofNat 16 (fld w (32 * (p % 2) + 31) (32 * (p % 2) + 16)) }
    if x = {} then m else (p, x) :: m) []

/-- The contexts of a restored control section; one saved ABORTED is CLOSED (R330). -/
def restoredCtxs (s : State) : SMap Ctx :=
  (List.range 16384).foldr (fun c m =>
    let w := ctlW s (133632 + 2 * c)
    let x : Ctx :=
      { w := (List.range 8).map fun i => ctlW s (2560 + 8 * c + i), st := if fld w 63 62 = 1 then .opened else .closed,
        pos := BitVec.ofNat 40 (fld w 39 0), rel := BitVec.ofNat 40 (fld (ctlW s (133633 + 2 * c)) 39 0) }
    if x = {} then m else (c, x) :: m) []

/-- RESTORE_DONE, R330. -/
def execRestoreDone (s : State) : Out :=
  inner (fun s =>
    if s.snap.rbusy && s.snap.phase == 1 && xferDone s snapNo then
      let w (i : Nat) : Word := ctlW s i
      let s' := { s with
        pairs := restoredPairs s
        ctxs := restoredCtxs s
        step := { s.step with step := w 1, depoch := (w 2).setWidth 16 } }
      let s' := wr s' .drawKey (w 3)
      let s' := (List.range 8).foldl (fun t k => wr t (.schedCnt k) (w (6 + k) &&& 0xFFFFFFFFFFFF)) s'
      let a := s.snap.cur
      let s' := snapForget s'
      { s' with snap := { s'.snap with last := s.sys.aon, area := !a, rbusy := false } }
    else s) s

/-- SNAP_ABORT, R331: causes 1 to 4. -/
def execSnapAbort (cause : BitVec 3) (s : State) : Out :=
  inner (fun s => if s.snap.rbusy && 1 ≤ cause.toNat && cause.toNat ≤ 4 then restoreAbort cause.toNat s else s) s

/-! ## Opening a step, and readiness -/

/-- epbeg's effect (R107, R312, R313): the epochs move on, STEP_STAT is cleared, and the schedules are evaluated (R306). -/
def stepOpen (s : State) : State :=
  let old := s.step.depoch
  let new := old + 1
  let s := { s with dir := mmap ({} : Entry) (fun _ x => if x.st != ESt.free && x.epoch == new then { x with epoch := old } else x) s.dir }
  let s := { s with
    sep := { s.sep with astat := s.sep.astat &&& 0xF }
    step := { s.step with
      depoch := new, start := old, open_ := true, inst := s.step.inst + 1, statStep := s.step.step.setWidth 32,
      late := false, blk := 0, latched := 0, ready := false, pabt := false, pcmt := false, snapFlag := false, due := false,
      rdyIssued := false, lastRdy := false, sweep := true, rolling := false, flipped := false,
      cntCopy := (List.range 8).map fun k => (rd s (.schedCnt k)).setWidth 48
      schEn := (List.range 8).foldl (fun a k => if bit (rd s (.schedCfg k)) 63 then a ||| BitVec.ofNat 8 (2 ^ k) else a) 0 } }
  schedAll s

/-- EPBEG, R312. -/
def execEpbeg (g : Guard) (s : State) : Out :=
  issue (.epbeg g) g (fun s => if s.step.open_ then badOp else .done (stepOpen s)) s

/-- Whether an update op is unfinished. -/
def updWork (s : State) : Bool := s.tasks.any fun t => t.op.kind == .upd

/-- The ready record (R315). -/
def readyRecord (s : State) : List Word :=
  [pack [(63, 1), (62, b1 (s.snap.due || s.step.due)), (32, (chipId s).toNat), (0, s.step.step.toNat % 2 ^ 32)],
   s.sys.aon.setWidth 64]

/-- Reports the chip ready (R315). -/
def reportReady (s : State) : State :=
  let a := (rd s .stepRpt).toNat
  let s := if a = 0 then s
    else noteWrite false false 0 (a + 15) (send (wrpMsg .hbp a (wordsBytes (readyRecord s)) 2) none s)
  { s with step := { s.step with ready := true } }

/-- eprdy's body (R107, R314, R315). -/
def eprdyBody (pd : BitVec 3) (s : State) : SepRes :=
  if !s.step.open_ then badOp
  else if updWork s then .wait 0xA s
  else
    let ok := s.step.blk == 0
    let s := { s with step := { s.step with rdyIssued := true, lastRdy := ok } }
    .done (pW pd ok (if ok then reportReady s else { s with step := { s.step with latched := s.step.blk } }))

/-- EPRDY, R314. -/
def execEprdy (g : Guard) (pd : BitVec 3) (s : State) : Out := issue (.eprdy g pd) g (eprdyBody pd) s

/-- SNAP, R107. -/
def execSnap (g : Guard) (s : State) : Out :=
  issue (.snap g) g (fun s => if s.step.open_ then .done { s with step := { s.step with due := true } } else badOp) s

/-! ## Rollback and commit -/

/-- An entry created in a step that is rolled back goes to FREE, whatever its state: its storage is returned, and what moves or
re-encodes it stops (R64, R319, R320). -/
def rollEntry (s : State) (e : Nat) : State :=
  let s := match reencOf s e with | some o => reencLeave o s | none => s
  freeEntry e (returnStorage e (extentGone e s))

/-- The entries of the open step. -/
def stepEntries (s : State) : List Nat :=
  (s.dir.filter fun x => x.2.st != .free && x.2.epoch == s.step.depoch).map (·.1)

/-- The sweep of a rollback frees the entries of the step; the ladder is evaluated where that ended actions (R74, R319). -/
def rollAll (s : State) : State := evalEnded s ((stepEntries s).foldl rollEntry s)

/-- The last of a rollback: DEPOCH and the schedule counts return, and the step closes (R319, steps 3 and 4). -/
def stepClose (s : State) : State :=
  let s := s.step.cntCopy.zipIdx.foldl (fun s x => wr s (.schedCnt x.2) (x.1.setWidth 64)) s
  { s with step := { s.step with depoch := s.step.start, open_ := false, pcmt := false, pabt := false, rolling := false } }

/-- Whether the separator stands at the last index of instruction memory, where an instruction that would complete traps (R91): one that
waits there leaves nothing behind (R109), so that a step is neither rolled back nor flipped by it. -/
def atEnd (s : State) : Bool := s.sep.pc == 32767

/-- The rollback of R319: it waits for the program's work, then sweeps the directory. -/
def rollBody (s : State) : SepRes :=
  if s.step.rolling then
    if s.step.sweep then .wait 0xA s else .done (stepClose (rollAll s))
  else if churnWork s || hubWork s || s.step.sweep then .wait 0xA s
  else if atEnd s then .done s
  else .wait 0xA { s with step := { s.step with sweep := true, rolling := true } }

/-- EPRB, R319. -/
def execEprb (g : Guard) (s : State) : Out :=
  issue (.eprb g) g (fun s => if s.step.open_ then rollBody s else badOp) s

/-- Whether no enabled region is held (R309). -/
def holdsFree (s : State) : Bool := (enabledPrms s).all fun p => mget 0 s.holds p.k == 0

/-- The flip of the step epoch; the schedules that were enabled at epbeg count it (R307, R318). -/
def flip (s : State) : State :=
  let s := (List.range 8).foldl (fun s k =>
    if s.step.schEn.getLsbD k then wr s (.schedCnt k) ((rd s (.schedCnt k) + 1) &&& 0xFFFFFFFFFFFF) else s) s
  { s with step := { s.step with step := s.step.step + 1, open_ := false } }

/-- A STOP that meets an epcmt after its flip takes back what the epcmt did: the flip, the read-backs it was done with, and the snapshot
it started, whose area is left without DONE (R111; log entry 77). -/
def unflip (s : State) : State :=
  if !s.step.flipped then s
  else
    let s := if s.snap.busy then snapForget s else s
    let s := s.step.cntCopy.zipIdx.foldl (fun s x => wr s (.schedCnt x.2) (x.1.setWidth 64)) s
    { s with
      readback := s.readback ++ s.step.backs.map fun b => { b with st := 0 }
      step := { s.step with step := s.step.step - 1, open_ := true, flipped := false, backs := [] }
      snap := { s.snap with busy := false, last := s.snap.was.1, due := s.snap.was.2.1, err := s.snap.was.2.2 } }

/-- epcmt's effect once nothing holds it: the flip, and the snapshot if the flag asks for one (R318). -/
def commitBody (s : State) : SepRes :=
  if atEnd s then .done s
  else if !s.step.snapFlag then .done (flip s)
  else
    let t := snapStart (flip (readDone s))
    if ctlIssued t then .done t
    else .wait 0xA { t with step := { t.step with flipped := true, backs := s.readback.filter fun b => !b.ring } }

/-- epcmt's body (R107, R318). -/
def epcmtBody (s : State) : SepRes :=
  if s.step.flipped then
    let s := snapGo s
    if ctlIssued s then .done { s with step := { s.step with flipped := false, backs := [] } } else .wait 0xA s
  else if !s.step.open_ || !s.step.lastRdy then badOp
  else if s.step.pabt || s.step.rolling then rollBody s
  else if !s.step.pcmt || !holdsFree s || s.snap.busy then .wait 0xA s
  else if !s.step.snapFlag then commitBody s
  else
    match globalFence s with
    | some s => .wait 0xA s
    | none => if queuesEmpty s then commitBody s else .wait 0xA s

/-- EPCMT, R318. -/
def execEpcmt (g : Guard) (s : State) : Out := issue (.epcmt g) g epcmtBody s

/-- DIRECTORY_SWEEP_END, R312. -/
def execDirectorySweepEnd (s : State) : Out := inner (fun s => { s with step := { s.step with sweep := false } }) s

/-! ## Requests -/

/-- A write of STEP_CMD (R316, R317). -/
def stepCmd (o : Org) (v : Word) (s : State) : State :=
  let refuse (s : State) : State := refuseWrite o (Reg.off .stepCmd) 0 v s
  let ok := s.step.open_ && fld v 63 32 == s.step.statStep.toNat
  match fld v 1 0 with
  | 1 =>
    if !ok || s.step.pabt then refuse s
    else { s with step := { s.step with pcmt := true, snapFlag := s.step.snapFlag || bit v 2 } }
  | 2 => if !ok then refuse s else { s with step := { s.step with pabt := true, pcmt := false } }
  | 3 =>
    if !ok then refuse s
    else
      let s := { s with step := { s.step with blk := s.step.blk ||| 2 } }
      raise 0xC (recWord none 0xFF 0 14) 0 s
  | _ => s

/-- The word of a request. -/
def stepReq (op : Nat) (snap : Bool) (step : BitVec 32) : Word := pack [(32, step.toNat), (2, b1 snap), (0, op)]

/-- COMMIT, R316. -/
def execCommit (o : Org) (step : BitVec 32) (snap : Bool) (s : State) : Out :=
  hostGate (.commit o step snap) (fun s => done (stepCmd o (stepReq 1 snap step) s)) s
/-- STEP_ABORT, R317. -/
def execStepAbort (o : Org) (step : BitVec 32) (s : State) : Out :=
  hostGate (.stepAbort o step) (fun s => done (stepCmd o (stepReq 2 false step) s)) s
/-- NONFIN, R316. -/
def execNonfin (o : Org) (step : BitVec 32) (s : State) : Out :=
  hostGate (.nonfin o step) (fun s => done (stepCmd o (stepReq 3 false step) s)) s

end Sys2Proof.Machine
end

