-- ==== Sys2Proof/Machine/SepSys.lean ====
section
/-! DEFINITION. The system instructions of the separator (R108), its control registers (R111), its memories as registers (R92,
R112), and the start of a program (R113). -/

namespace Sys2Proof.Machine

/-! ## System instructions -/

/-- NOP, R88. -/
def execNop (g : Guard) (s : State) : Out := issue (.nop g) g (fun s => .done s) s

/-- HALT, R108. -/
def execHalt (g : Guard) (s : State) : Out :=
  issue (.halt g) g (fun s => .done { s with sep := { s.sep with st := .halted } }) s

/-- TRAP: a software trap with INFO := IMM[31:0], R108. -/
def execTrap (g : Guard) (imm : BitVec 36) (s : State) : Out :=
  issue (.trap g imm) g (fun _ => .trap 0 (some (imm.setWidth 32)) none true) s

/-- RDSR, R108. -/
def execRdsr (g : Guard) (d idx : BitVec 6) (s : State) : Out :=
  issue (.rdsr g d idx) g (fun s => .done (gW d (specialReg s idx.toNat) s)) s

/-- A write of a special register: LAYER, or the bits of ASTAT to clear (R108). -/
def specialPut (idx : BitVec 6) (v : Word) (s : State) : State :=
  match idx.toNat with
  | 2 => { s with sep := { s.sep with layer := v } }
  | 5 => { s with sep := { s.sep with astat := s.sep.astat &&& ~~~ v.setWidth 5 } }
  | _ => s

/-- WRSR, R108. -/
def execWrsr (g : Guard) (a idx : BitVec 6) (s : State) : Out :=
  issue (.wrsr g a idx) g (fun s => .done (specialPut idx (gR s a) s)) s

/-- RTE, R108. -/
def execRte (g : Guard) (s : State) : Out :=
  issue (.rte g) g (fun s =>
    let r := gR s 62
    if s.sep.inh && r.toNat < 32768 then .goto { s with sep := { s.sep with inh := false } } (r.setWidth 15) else badOp) s

/-! ## Control -/

/-- A register after a write of the bits `m` of `v`. -/
def mergeW (old v m : Word) : Word := (v &&& m) ||| (old &&& ~~~ m)

/-- Leaves HALTED or TRAPPED; CYC counts from the last leaving of HALTED (R108, R111). -/
def sepRun (s : State) : State :=
  if s.sep.st == .running then s
  else { s with sep := { s.sep with st := .running, cyc := if s.sep.st == .halted then 0 else s.sep.cyc } }

/-- STOP: the instruction that holds issue is abandoned without effect, and the separator is HALTED at it (R111). -/
def sepStop (s : State) : State :=
  let s := leaveIssue (unflip (readVoid s))
  { s with sep := { s.sep with st := .halted }, step := { s.step with rolling := false, sweep := s.step.sweep && !s.step.rolling } }

/-- STEP: one instruction is issued, then the separator halts (R111). -/
def sepStepOne (s : State) : State := let s := sepRun s; { s with sep := { s.sep with stepping := true } }

/-- A write of SEP_CTL: the first of STOP, STEP and START acts (R111). -/
def sepCtlOp (o : Org) (v : Word) (s : State) : State :=
  let w := v &&& sizeMask o.size
  let old := rd s .sepCtl
  if !bit w 1 && bit w 2 && s.sep.st == .running then refuseWrite o (Reg.off .sepCtl) old v s
  else
    let s := wr s .sepCtl (mergeW old v ((Reg.desc .sepCtl).rw &&& sizeMask o.size))
    if bit w 1 then sepStop s else if bit w 2 then sepStepOne s else if bit w 0 then sepRun s else s

/-- A word with its bits [2:0] replaced. -/
def withCmd (v : Word) (k : Nat) : Word := setFld v 2 0 k

/-- SEP_CTL_START: a write of SEP_CTL with START alone of the three, R111. -/
def execSepCtlStart (o : Org) (v : Word) (s : State) : Out :=
  hostGate (.sepCtlStart o v) (fun s => done (logIf o .sepCtl s (sepCtlOp o (withCmd v 1) s))) s
/-- SEP_CTL_STOP, R111. -/
def execSepCtlStop (o : Org) (v : Word) (s : State) : Out :=
  hostGate (.sepCtlStop o v) (fun s => done (logIf o .sepCtl s (sepCtlOp o (withCmd v 2) s))) s
/-- SEP_CTL_STEP, R111. -/
def execSepCtlStep (o : Org) (v : Word) (s : State) : Out :=
  hostGate (.sepCtlStep o v) (fun s => done (logIf o .sepCtl s (sepCtlOp o (withCmd v 4) s))) s

/-- A write of SEP_PC (R111). -/
def sepPcOp (o : Org) (v : Word) (s : State) : State :=
  let old := s.sep.pc.setWidth 64
  if !sepStopped s then refuseWrite o (Reg.off .sepPc) old v s
  else { s with sep := { s.sep with pc := (mergeW old v (sizeMask o.size)).setWidth 15 } }

/-- SEP_PC_WRITE, R111. -/
def execSepPcWrite (o : Org) (v : Word) (s : State) : Out :=
  hostGate (.sepPcWrite o v) (fun s => done (logIf o .sepPc s (sepPcOp o v s))) s

/-- A write of instruction memory (R112). -/
def imemOp (o : Org) (i : Nat) (v : Word) (s : State) : State :=
  let old := mget 0 s.imem i
  if !sepStopped s then refuseWrite o (Reg.off (.imem i)) old v s
  else { s with imem := mset 0 s.imem i (mergeW old v (sizeMask o.size)) }

/-- INSTRUCTION_MEMORY_WRITE, R112. -/
def execInstructionMemoryWrite (o : Org) (i : BitVec 15) (v : Word) (s : State) : Out :=
  hostGate (.instructionMemoryWrite o i v) (fun s => done (imemOp o i.toNat v s)) s

/-- A write of data memory (R92). -/
def dmemOp (o : Org) (i : Nat) (v : Word) (s : State) : State :=
  dmWrite (8 * i) (wordBytes (mergeW (dmRead s (8 * i)) v (sizeMask o.size))) s

/-- DATA_MEMORY_WRITE, R92. -/
def execDataMemoryWrite (o : Org) (i : BitVec 15) (v : Word) (s : State) : Out :=
  hostGate (.dataMemoryWrite o i v) (fun s => done (dmemOp o i.toNat v s)) s

/-- The start of a program (R113): entry index and up to 8 arguments. Deadlines have no base until the next LAYER_START
(R259). -/
def runStart (entry : BitVec 15) (args : List Word) (s : State) : State :=
  let s := (List.range 8).foldl (fun s i => gW (BitVec.ofNat 6 (i + 1)) (nth args i) s) s
  let s := sepRun { s with sep := { s.sep with p := 0, inh := false, pc := entry } }
  { s with layerStart := none }

end Sys2Proof.Machine
end

