-- ==== Sys2Proof/Machine/Tables.lean ====
section
/-! DEFINITION. Register writes with rules of their own: the cold cellar and the directory copy (R68, R69), generations (R151),
function tables (R208, R209), stripe weights (R244), regions and holds (R291, R308), the flag logs (R196), plan counters
(R130), faults and interrupts (R288, R378), and the change log's copy (R350). -/

namespace Sys2Proof.Machine

/-! ## Shared forms -/

/-- The bits a write of a register may store: those the map gives it, RWL bits until the lock, of the half addressed (R7, R8). -/
def storeMask (o : Org) (r : Reg) (s : State) : Word :=
  ((Reg.desc r).rw ||| (if s.sys.locked then 0 else (Reg.desc r).rwl)) &&& sizeMask o.size

/-- The value a plain write leaves in a register. -/
def stored (o : Org) (r : Reg) (v : Word) (s : State) : Word := mergeW (rd s r) v (storeMask o r s)

/-- A write that is ignored without a fault: change log RESULT 1 (R349), if the register is logged. -/
def ignoreWrite (o : Org) (r : Reg) (v : Word) (s : State) : State :=
  if (Reg.desc r).log then logWrite o (Reg.off r) 1 (regVal s r) v s else s

/-- A plain write of a register (R8); one that may store nothing because its fields are locked is ignored (R10, R365). -/
def plainWrite (o : Org) (r : Reg) (v : Word) (s : State) : State :=
  if storeMask o r s = 0 ∧ (Reg.desc r).rwl ≠ 0 then ignoreWrite o r v s else wr s r (stored o r v s)

/-- A write of register `r`: refused, with ILLEGAL_OP and an entry of the change log. -/
def refuseReg (o : Org) (r : Reg) (v : Word) (s : State) : State := refuseWrite o (Reg.off r) (regVal s r) v s

/-- The row command of a write of register `r`, with effect `f`. -/
def regCmd (o : Org) (r : Reg) (c : Instr) (f : State → State) (s : State) : Out :=
  hostGate c (fun s => done (logIf o r s (f s))) s

/-! ## Cellar and directory -/

/-- A write of COLD_BASE or COLD_SIZE (R69). -/
def coldOp (o : Org) (r : Reg) (v : Word) (s : State) : State :=
  let raises := r.off == Reg.off .coldSize && decide ((rd s r).toNat < (stored o r v s).toNat)
  if !raises && s.dir.any fun x => hasCold x.2 then refuseReg o r v s else plainWrite o r v s

/-- The register COLD_CELLAR_WRITE names. -/
def coldReg (size : Bool) : Reg := if size then .coldSize else .coldBase

/-- COLD_CELLAR_WRITE, R69. -/
def execColdCellarWrite (o : Org) (size : Bool) (v : Word) (s : State) : Out :=
  regCmd o (coldReg size) (.coldCellarWrite o size v) (coldOp o (coldReg size) v) s

/-- A write of DIR_SEL (R68). -/
def dirSelOp (o : Org) (v : Word) (s : State) : State :=
  let s := plainWrite o .dirSel v s
  { s with dirData := (List.range 4).map (entWord (entAt s (fld (rd s .dirSel) 16 0))) }

/-- DIR_SEL_WRITE, R68. -/
def execDirSelWrite (o : Org) (v : Word) (s : State) : Out := regCmd o .dirSel (.dirSelWrite o v) (dirSelOp o v) s

/-! ## Generations -/

/-- Begins the wake of every churn of a mask that is not ACTIVE (R356). -/
def wakeMask (m : BitVec 32) (s : State) : State := (maskList m).foldl (fun s n => wake n s) s

/-- The churns of a mask that apply a command at once: those that are not in SLEEP or OFF (R151, R208). -/
def upMask (s : State) (m : BitVec 32) : BitVec 32 :=
  (maskList m).foldl (fun a n =>
    match (churnAt s n).pwr with
    | .active | .idle => a ||| BitVec.ofNat 32 (2 ^ n)
    | _ => a) 0

/-- A command word's STAT: DONE, ERR at bit `eb`, the generation or table, BUSY. -/
def statWord (done : BitVec 32) (eb err g : Nat) (busy : Bool) : Word :=
  pack [(32, done.toNat), (eb, err), (4, g), (0, if busy then 1 else 0)]

/-- DONE of a command grows by some churns, and BUSY clears when none is left. -/
def statDone (w : Word) (m left : BitVec 32) : Word := setFld (w ||| pack [(32, m.toNat)]) 0 0 (if left = 0 then 0 else 1)

/-- CB_STAT after a refused command. -/
def cbStatErr (err g : Nat) (s : State) : State := { s with cbStat := statWord 0 8 err g false }

/-- Changes generation `g` of every churn of a mask. -/
def modGens (m : BitVec 32) (g : Nat) (f : Gen → Gen) (s : State) : State :=
  (maskList m).foldl (fun s n => modChurn n (fun c => { c with gens := vset c.gens g (f (vget {} c.gens g)) }) s) s

/-- Whether an op in churn `n` holds a reference to generation `g` (R149, R151). -/
def genHeld (s : State) (n g : Nat) : Bool :=
  let c := churnAt s n
  let held (o : ChurnOp) : Bool := o.gen == some (BitVec.ofNat 4 g)
  c.queue.any held || c.run.any fun o => held o.op

/-- LOAD of a generation (R138, R151): the error, or 0. -/
def cbLoadErr (s : State) (m : BitVec 32) (g : Nat) : Nat :=
  if !imgLegal ((List.range 68).map fun w => rd s (.cbStage w)) then 1
  else if (maskList m).any fun n => (vget {} (churnAt s n).gens g).st != .free then 2 else 0

/-- RETIRE of a generation in one churn (R151). -/
def retireGen (x : Gen) : Gen :=
  if x.st == .live then (if x.refs = 0 then {} else { x with st := .draining }) else x

/-- FORCE_FREE of generation `g` in churn `n` (R151). -/
def forceGen (g : Nat) (s : State) (n : Nat) : State :=
  modChurn n (fun c => { c with
    gens := vset c.gens g {}
    tags := mmap Tag.none (fun _ t => if t = .gen (BitVec.ofNat 4 g) then .retired else t) c.tags }) s

/-- A generation command's effect in the churns of a mask (R151). -/
def cbApply (op g : Nat) (m : BitVec 32) (s : State) : State :=
  match op with
  | 1 => modGens m g (fun _ => { st := .live, refs := 0, img := (List.range 68).map fun w => rd s (.cbStage w) }) s
  | 2 => modGens m g retireGen s
  | _ => (maskList m).foldl (forceGen g) s

/-- An accepted generation command: churns that are up apply it, the others when their wake ends (R151). -/
def cbRun (op g : Nat) (m : BitVec 32) (s : State) : State :=
  let a := upMask s m
  let l := m &&& ~~~ a
  cbApply op g a { s with cbStat := statWord a 8 0 g (l != 0), cbJob := { op := op, left := l } }

/-- A write of CB_STAGE or CB_CMD while a command is in progress: ignored, ERR 4 (R151). -/
def cbBusy (o : Org) (r : Reg) (v : Word) (s : State) : State := refuseReg o r v { s with cbStat := setFld s.cbStat 11 8 4 }

/-- A write of CB_CMD (R151): all of the mask's churns, or none. Where both checks of LOAD fail ERR is 1, where both conditions of FORCE_FREE
fail it is 3; and a write of one half of the register acts with 0 for the other half, which is not held (DEDUCED, log entry 47). -/
def cbCmd (o : Org) (v : Word) (s : State) : State :=
  let v' := v &&& sizeMask o.size
  let m := v'.extractLsb' 32 32
  let g := fld v' 7 4
  let op := fld v' 1 0
  if s.cbJob.left ≠ 0 then cbBusy o .cbCmd v s
  else if op = 0 then s
  else
    let e :=
      if op = 1 then cbLoadErr s m g
      else if op = 2 then 0
      else if s.sys.mode ≠ 4 then 3
      else if (maskList m).any fun n => genHeld s n g then 5 else 0
    let s := wakeMask m s
    if e ≠ 0 then refuseReg o .cbCmd v (cbStatErr e g s) else cbRun op g m s

/-- The word a generation command writes to CB_CMD. -/
def cbWord (mask : BitVec 32) (gen : BitVec 4) (op : Nat) : Word := pack [(32, mask.toNat), (4, gen.toNat), (0, op)]

/-- CB_LOAD, R151. -/
def execCbLoad (o : Org) (mask : BitVec 32) (gen : BitVec 4) (s : State) : Out :=
  regCmd o .cbCmd (.cbLoad o mask gen) (cbCmd o (cbWord mask gen 1)) s
/-- CB_RETIRE, R151. -/
def execCbRetire (o : Org) (mask : BitVec 32) (gen : BitVec 4) (s : State) : Out :=
  regCmd o .cbCmd (.cbRetire o mask gen) (cbCmd o (cbWord mask gen 2)) s
/-- FORCE_FREE, R151. -/
def execForceFree (o : Org) (mask : BitVec 32) (gen : BitVec 4) (s : State) : Out :=
  regCmd o .cbCmd (.forceFree o mask gen) (cbCmd o (cbWord mask gen 3)) s

/-! ## Function tables -/

/-- FT_STAT after a refused command; PEND is formed when it is read. -/
def ftStatErr (err t : Nat) (s : State) : State := { s with ftStat := statWord 0 12 err t false }

/-- The inactive bank of table `t`. -/
def idleBank (c : Churn) (t : Nat) : Option (List Word) :=
  let b := vget {} c.banks t
  if c.active.getLsbD t then b.a else b.b

/-- Writes an image into the inactive bank of table `t`. -/
def loadBank (t : Nat) (img : List Word) (c : Churn) : Churn :=
  let b := vget {} c.banks t
  { c with banks := vset c.banks t (if c.active.getLsbD t then { b with a := some img } else { b with b := some img }) }

/-- Makes the other bank of table `t` active. -/
def swapBank (t : Nat) (c : Churn) : Churn := { c with active := c.active ^^^ BitVec.ofNat 8 (2 ^ t) }

/-- The image of table `t` as FT_STAGE holds it (R199). -/
def ftImage (t : Nat) (s : State) : List Word := (List.range (tabWords t)).map fun w => rd s (.ftStage w)

/-- A table command's effect in the churns of a mask (R208). -/
def ftApply (op t : Nat) (m : BitVec 32) (s : State) : State :=
  let img := ftImage t s
  (maskList m).foldl (fun s n => modChurn n (if op = 1 then loadBank t img else swapBank t) s) s

/-- An accepted table command: churns that are up apply it, the others when their wake ends (R208). -/
def ftRun (op t : Nat) (m : BitVec 32) (s : State) : State :=
  let a := upMask s m
  let l := m &&& ~~~ a
  let s := if op = 1 then { s with ftCrc := crc32c (wordsBytes (ftImage t s)) } else s
  ftApply op t a { s with ftStat := statWord a 12 0 t (l != 0), ftJob := { op := op, left := l } }

/-- A write of FT_STAGE or FT_CMD while a command is in progress: ignored, ERR 4 (R209). -/
def ftBusy (o : Org) (r : Reg) (v : Word) (s : State) : State := refuseReg o r v { s with ftStat := setFld s.ftStat 15 12 4 }

/-- A write of FT_CMD (R208, R209, R212): all of the mask's churns, or none. -/
def ftCmd (o : Org) (v : Word) (s : State) : State :=
  let v' := v &&& sizeMask o.size
  let m := v'.extractLsb' 32 32
  let t := fld v' 6 4
  let op := fld v' 1 0
  if s.ftJob.left ≠ 0 then ftBusy o .ftCmd v s
  else if op = 0 then s
  else if op = 3 then refuseReg o .ftCmd v (ftStatErr 5 t s)
  else
    let s := wakeMask m s
    if (maskList m).any fun n => draining (churnAt s n) t then
      let s := logWrite o (Reg.off .ftCmd) 1 0 v (ftStatErr 2 t s)
      raise 0x17 (recWord none 0xFF 0 14) (BitVec.ofNat 64 t) s
    else if op = 1 ∧ !tabLegal (bit (rd s .sfuCfg) 0) t (ftImage t s) then refuseReg o .ftCmd v (ftStatErr 1 t s)
    else if op = 2 ∧ (maskList m).any fun n => (idleBank (churnAt s n) t).isNone then refuseReg o .ftCmd v (ftStatErr 3 t s)
    else ftRun op t m s

/-- A churn's wake ended: it applies the commands that waited for it (R151, R208). -/
def tabWoken (n : Nat) (s : State) : State :=
  let m := BitVec.ofNat 32 (2 ^ n)
  let s :=
    if s.cbJob.left.getLsbD n then
      let l := s.cbJob.left &&& ~~~ m
      cbApply s.cbJob.op (fld s.cbStat 7 4) m
        { s with cbStat := statDone s.cbStat m l, cbJob := { s.cbJob with left := l } }
    else s
  if s.ftJob.left.getLsbD n then
    let l := s.ftJob.left &&& ~~~ m
    ftApply s.ftJob.op (fld s.ftStat 6 4) m
      { s with ftStat := statDone s.ftStat m l, ftJob := { s.ftJob with left := l } }
  else s

/-- The word a table command writes to FT_CMD. -/
def ftWord (mask : BitVec 32) (tid : BitVec 3) (op : Nat) : Word := pack [(32, mask.toNat), (4, tid.toNat), (0, op)]

/-- FT_LOAD, R208. -/
def execFtLoad (o : Org) (mask : BitVec 32) (tid : BitVec 3) (s : State) : Out :=
  regCmd o .ftCmd (.ftLoad o mask tid) (ftCmd o (ftWord mask tid 1)) s
/-- FT_SWAP, R208. -/
def execFtSwap (o : Org) (mask : BitVec 32) (tid : BitVec 3) (s : State) : Out :=
  regCmd o .ftCmd (.ftSwap o mask tid) (ftCmd o (ftWord mask tid 2)) s

/-! ## Stripe weights -/

/-- A write of STRIPE_WT (R244): set 0 is read-only, and a set in use is not written. -/
def stripeOp (o : Org) (k h : Nat) (v : Word) (s : State) : State :=
  if setInUse s k then refuseReg o (.stripeWt k h) v s
  else if k = 0 then ignoreWrite o (.stripeWt k h) v s
  else plainWrite o (.stripeWt k h) v s

/-- STRIPE_WT_WRITE, R244. -/
def execStripeWtWrite (o : Org) (st : BitVec 4) (h : BitVec 1) (v : Word) (s : State) : Out :=
  regCmd o (.stripeWt st.toNat h.toNat) (.stripeWtWrite o st h v) (stripeOp o st.toNat h.toNat v) s

/-! ## Regions and holds -/

/-- Whether an update op on region `k` is in flight. -/
def updOn (s : State) (k : Nat) : Bool := s.tasks.any fun t => t.op.kind == .upd && t.op.desc.layer % 256 == k

/-- A write of a region register (R291). -/
def prmOp (o : Org) (r : Reg) (k : Nat) (v : Word) (s : State) : State :=
  let old := rd s r
  let new := stored o r v s
  let cfg := r.off == Reg.off (.prmCfg k)
  let p := prm s k
  let flagsOnly := cfg && !s.step.open_ && new != old && (new ^^^ old) &&& ~~~ 0x5000000000000000 == 0
  if p.en && (s.step.open_ || updOn s k) && !flagsOnly then refuseReg o r v s
  else if cfg && !p.en && bit new 63 then
    if prmCheck s { p with cfg := new } then wr s r new
    else illegalReg r.off (logWrite o r.off 0 old (setFld new 63 63 0) (wr s r (setFld new 63 63 0)))
  else wr s r new

/-- PRM_ENABLE, R291: a write of PRM_CFG with EN = 1. -/
def execPrmEnable (o : Org) (k : BitVec 8) (v : Word) (s : State) : Out :=
  regCmd o (.prmCfg k.toNat) (.prmEnable o k v) (prmOp o (.prmCfg k.toNat) k.toNat (v ||| 0x8000000000000000)) s

/-- A write of PRM_HOLD (R308). -/
def holdOp (o : Org) (k : Nat) (v : Word) (s : State) : State :=
  let v' := v &&& sizeMask o.size
  let c := mget 0 s.holds k
  match fld v' 1 0 with
  | 0 => s
  | 1 => if c ≥ 65535 then refuseReg o (.prmHold k) v s else { s with holds := mset 0 s.holds k (c + 1) }
  | 2 => if c = 0 then refuseReg o (.prmHold k) v s else { s with holds := mset 0 s.holds k (c - 1) }
  | _ => refuseReg o (.prmHold k) v s

/-- TAKE, R308. -/
def execTake (o : Org) (k : BitVec 8) (s : State) : Out := regCmd o (.prmHold k.toNat) (.take o k) (holdOp o k.toNat 1) s
/-- PRM_HOLD_REL, R308. -/
def execPrmHoldRel (o : Org) (k : BitVec 8) (s : State) : Out :=
  regCmd o (.prmHold k.toNat) (.prmHoldRel o k) (holdOp o k.toNat 2) s

/-! ## Flag logs, plan counters, faults and interrupts -/

/-- A pop of churn `n`'s flag log (R196). -/
def popOp (n : Nat) (s : State) : State := modChurn n (fun c => { c with flags := c.flags.drop 1 }) s

/-- POP, R196. -/
def execPop (o : Org) (n : BitVec 5) (s : State) : Out := churnGate n.toNat (.pop o n) (fun s => done (popOp n.toNat s)) s

/-- PLAN_CTL.CLR (R130). -/
def planClear (s : State) : State :=
  { s with
    plan := { freeMin := BitVec.ofNat 17 (minFree s) }
    churns := s.churns.map fun c => { c with lslRaw := 0, lslSect := 0, whey := 0 } }

/-- A write of PLAN_CTL (R129, R130). CLR clears whatever FREEZE holds (log entry 75); with FREEZE 0, PLAN_FREE_MIN takes the present
minimum if that is lower. -/
def planCtlOp (o : Org) (v : Word) (s : State) : State :=
  let s := plainWrite o .planCtl v s
  let s := if bit (v &&& sizeMask o.size) 0 then planClear s else s
  if s.hasCellar then noteFree s else s

/-- PLAN_CTL_CLR, R130. -/
def execPlanCtlClr (o : Org) (s : State) : Out := regCmd o .planCtl (.planCtlClr o) planClear s

/-- A write of FLT_STAT (R378). -/
def fltClear (o : Org) (v : Word) (s : State) : State := { s with flt := s.flt &&& ~~~ (v &&& sizeMask o.size).setWidth 24 }

/-- FLT_STAT_CLEAR, R378. -/
def execFltStatClear (o : Org) (v : Word) (s : State) : Out := regCmd o .fltStat (.fltStatClear o v) (fltClear o v) s

/-- A write of IRQ_MSG_CTL: clearing MASK with PEND = 1 sends the message (R288). -/
def irqCtlOp (o : Org) (i : Nat) (v : Word) (s : State) : State :=
  let was := bit (rd s (.irqMsgCtl i)) 2
  let s := plainWrite o (.irqMsgCtl i) v s
  if was then irqRelease s i else s

/-- IRQ_MSG_MASK_WRITE, R288: a write of IRQ_MSG_CTL. -/
def execIrqMsgMaskWrite (o : Org) (v : BitVec 3) (x : Word) (s : State) : Out :=
  regCmd o (.irqMsgCtl v.toNat) (.irqMsgMaskWrite o v x) (irqCtlOp o v.toNat x) s

/-- A write of CL_SEL (R350). -/
def clSelOp (o : Org) (v : Word) (s : State) : State :=
  let s := plainWrite o .clSel v s
  let e := mget {} s.log (fld (rd s .clSel) 11 0)
  { s with clData := [e.w0, e.w1, e.old, e.new] }

/-- CL_SEL_WRITE, R350. -/
def execClSelWrite (o : Org) (v : Word) (s : State) : Out := regCmd o .clSel (.clSelWrite o v) (clSelOp o v) s

/-- The churn in whose logic a register lies, if it lies in one (R388). -/
def inChurn : Reg → Option Nat
  | .chLag n | .chCelFree n | .chCelOwned n | .chPlanLslRaw n | .chPlanLslSect n | .chPlanWhey n | .chCodecEvt n
  | .chCodecErr n | .chCbState n _ | .chFmtEvt n | .chArithEvt n | .chFtBank n | .chAflagStat n | .chAflagHead n
  | .chAflagTile n | .chAflagCtl n | .chVslot n _ | .chUpdEvt n => some n
  | .chan (.pail n _) _ => some n.toNat
  | _ => none

/-- Whether the churn a register lies in is awake; where not, its wake begins (R356). -/
def churnReady (r : Reg) (s : State) : Option State :=
  match inChurn r with
  | some n => if (churnAt s n).pwr == .active then none else some (wake n s)
  | none => none

/-- RC_COUNTER_READ, R378: a read of the register at an offset, whose RC fields are cleared. A register in a churn waits for the
churn (R388). -/
def execRcCounterRead (o : Org) (off : BitVec 26) (s : State) : Out :=
  match regAt (off.toNat / 8 * 8) with
  | none => .next s
  | some r =>
    let f := fun s => done (regRead o.size r s).2
    match inChurn r with
    | some n => churnGate n (.rcCounterRead o off) f s
    | none => hostGate (.rcCounterRead o off) f s

end Sys2Proof.Machine
end

