-- ==== Sys2Proof/Machine/Keys.lean ====
section
/-! DEFINITION. The key store (R342 to R344) and the non-volatile store (R345 to R348). -/

namespace Sys2Proof.Machine

/-! ## Keys -/

/-- Whether a transfer or a sealed copy uses key slot `k` (R342). -/
def slotUsed (s : State) (k : Nat) : Bool :=
  (liveChans s).any (fun i => (chanAt s i).x.cover != .clear && (chanAt s i).x.slot.toNat == k)
  || ((s.snap.busy || s.snap.rbusy) && s.snap.x.cover != .clear && s.snap.x.slot.toNat == k)
  || (s.copies.any fun c => !c.expired && c.slot.toNat == k)
  || s.wins.any fun w => match w.fin with | .seal x => x.toNat == k | _ => false

/-- A write of word `w` of slot `k` (R342). The change log records the words as 0 (R344). -/
def keyOp (o : Org) (k w : Nat) (v : Word) (s : State) : State :=
  if slotUsed s k then refuseReg o (.keySlot k w) 0 s
  else
    let x := keyAt s k
    let got := (if x.valid then 0 else x.written) ||| BitVec.ofNat 4 (2 ^ w)
    let y : Key := { w := vset x.w w (mergeW (vget 0 x.w w) v (sizeMask o.size)), written := got, valid := got == 15 }
    { s with keys := vset s.keys k y }

/-- KEY_SLOT_WRITE, R342. -/
def execKeySlotWrite (o : Org) (k : BitVec 3) (w : BitVec 2) (v : Word) (s : State) : Out :=
  regCmd o (.keySlot k.toNat w.toNat) (.keySlotWrite o k w v) (keyOp o k.toNat w.toNat v) s

/-- A transfer that uses slot `k` fails when the slot is zeroized (R340, R343). -/
def slotLost (k : Nat) (s : State) : State :=
  let s := (liveChans s).foldl (fun s i =>
    let x := (chanAt s i).x
    if x.cover != .clear && x.slot.toNat == k && !x.failing then
      settleChan (cryptFail (chanNo i) 1 0x12 k (firstUnit x) s) i
    else s) s
  let x := s.snap.x
  if (s.snap.busy || s.snap.rbusy) && x.cover != .clear && x.slot.toNat == k then snapGo (cryptFail snapNo 1 0x12 k (firstUnit x) s)
  else s

/-- Zeroizes slot `k` (R343). The key store does so in every state of the block; the transfers learn of it when fclk runs (R353). -/
def zeroize (k : Nat) (s : State) : State :=
  let s := { s with keys := vset s.keys k {} }
  if live s then slotLost k s else s

/-- Zeroizes every slot (R343). -/
def zeroizeAll (s : State) : State := (List.range 8).foldl (fun s k => zeroize k s) s

/-- A write of KEY_CTL (R343). -/
def keyCtlOp (o : Org) (v : Word) (s : State) : State :=
  (List.range 8).foldl (fun s k => if bit (v &&& sizeMask o.size) (8 + k) then zeroize k s else s) s

/-- ZERO, R343. -/
def execZero (o : Org) (k : BitVec 3) (s : State) : Out :=
  regCmd o .keyCtl (.zero o k) (keyCtlOp o (BitVec.ofNat 64 (2 ^ (8 + k.toNat)))) s

/-- DEBUG_UNLOCK, R343: the wrapper works in every state of the block. -/
def execDebugUnlock (s : State) : Out := done (zeroizeAll s)

/-! ## The non-volatile store -/

/-- A byte of the store; an erased one is all ones. -/
def nvByte (s : State) (a : Nat) : Byte := mget 0xFF s.nv.mem a

/-- Bytes of the store. -/
def nvBytes (s : State) (a n : Nat) : List Byte := (List.range n).map fun i => nvByte s (a + i)

/-- A word of the store. -/
def nvWord (s : State) (a : Nat) : Word := BitVec.ofNat 64 (ofBytes (nvBytes s a 8))

/-- Writes bytes to the store. -/
def nvPut (l : List Byte) (a : Nat) (s : State) : State :=
  { s with nv := { s.nv with mem := (l.zipIdx.foldl (fun m x => mset 0xFF m (a + x.2) x.1) s.nv.mem) } }

/-- Erases sector `k`. -/
def nvErase (k : Nat) (s : State) : State :=
  { s with nv := { s.nv with mem := s.nv.mem.filter fun x => !(x.1 / 2048 == k) } }

/-- The command code of NV_CMD. -/
def nvOp : Nat → Option NvOp
  | 1 => some .erase
  | 2 => some .program
  | 3 => some .read
  | _ => none

/-- Why a command on page `p` is refused: ERR, or 0 (R347). -/
def nvErr (s : State) (op : NvOp) (p : Nat) : Nat :=
  if 120 ≤ p then 1
  else if op = .program ∧ !(nvBytes s (512 * p) 512).all (· == 0xFF) then 2
  else if !s.nv.vdd then 3
  else if s.nv.busy.isSome then 4 else 0

/-- A write of NV_CMD (R347). -/
def nvCmd (o : Org) (v : Word) (s : State) : State :=
  let v' := v &&& sizeMask o.size
  match nvOp (fld v' 1 0) with
  | none => s
  | some op =>
    let p := fld v' 14 8
    let e := nvErr s op p
    let s := { s with nv := { s.nv with err := BitVec.ofNat 4 e } }
    if e ≠ 0 then refuseReg o .nvCmd v s else { s with nv := { s.nv with busy := some (op, p) } }

/-- The word a command of the store writes to NV_CMD. -/
def nvWrite (page : BitVec 7) (op : Nat) : Word := pack [(8, page.toNat), (0, op)]

/-- ERASE, R347. -/
def execErase (o : Org) (page : BitVec 7) (s : State) : Out := regCmd o .nvCmd (.erase o page) (nvCmd o (nvWrite page 1)) s
/-- PROGRAM, R347. -/
def execProgram (o : Org) (page : BitVec 7) (s : State) : Out :=
  regCmd o .nvCmd (.program o page) (nvCmd o (nvWrite page 2)) s
/-- NV_READ, R347. -/
def execNvRead (o : Org) (page : BitVec 7) (s : State) : Out := regCmd o .nvCmd (.nvRead o page) (nvCmd o (nvWrite page 3)) s

/-- The effect of a command of the store when it finishes (R347). -/
def nvFinish (s : State) : State :=
  match s.nv.busy with
  | none => s
  | some (op, p) =>
    let s := { s with nv := { s.nv with busy := none } }
    match op with
    | .erase => nvErase (p / 4) s
    | .program =>
      let s := nvPut ((List.range 64).flatMap fun w => wordBytes (rd s (.nvPage w))) (512 * p) s
      { s with nv := { s.nv with torn := false } }
    | .read => (List.range 64).foldl (fun s w => wr s (.nvPage w) (nvWord s (512 * p + 8 * w))) s

/-- NV_COMMAND_DONE, R347. -/
def execNvCommandDone (s : State) : Out := done (nvFinish s)

/-- Power is lost, or a cold reset comes, during a command of the store: what it was to change holds no stated bytes, and the
image fails its check (R347). -/
def nvTear (s : State) : State :=
  match s.nv.busy with
  | none => s
  | some (op, p) =>
    let s := { s with nv := { s.nv with busy := none } }
    let free (a n : Nat) (s : State) : State :=
      { nvPut ((List.range n).map fun i => Config.freeByte (s.freeCtr + i)) a s with freeCtr := s.freeCtr + n }
    match op with
    | .erase => let s := free (p / 4 * 2048) 2048 s; { s with nv := { s.nv with torn := true } }
    | .program => let s := free (512 * p) 512 s; { s with nv := { s.nv with torn := true } }
    | .read => s

/-! ## The image and the boot record -/

/-- NR of the image. -/
def imageNr (s : State) : Nat := fld (nvWord s 0) 63 48

/-- Whether the image is used: MAGIC, FORMAT, NR and CRC are correct (R345, R346). -/
def imageOk (s : State) : Bool :=
  let h := nvWord s 0
  !s.nv.torn && s.nv.vdd && fld h 31 0 == 0x5A4B4E56 && fld h 47 32 == 1 && imageNr s ≤ 3836
  && fld (nvWord s 8) 31 0 == (crc32c (nvBytes s 0 8 ++ nvBytes s 64 (16 * imageNr s))).toNat

/-- The valid boot-record words: address and count (R348). -/
def bootWords (s : State) : List (Nat × Nat) :=
  (List.range 512).filterMap fun i =>
    let w := nvWord s (61440 + 8 * i)
    if fld w 63 32 = 2 ^ 32 - 1 - fld w 31 0 then some (61440 + 8 * i, fld w 22 0) else none

/-- The largest valid boot-record word. -/
def bootMax (s : State) : Option (Nat × Nat) :=
  (bootWords s).foldl (fun a x => match a with | none => some x | some y => if y.2 < x.2 then some x else some y) none

/-- The first erased word of boot sector `k` (30 or 31). -/
def bootFree (s : State) (k : Nat) : Option Nat :=
  ((List.range 256).map fun i => 2048 * k + 8 * i).find? fun a => nvWord s a == 0xFFFFFFFFFFFFFFFF

/-- Advances the boot count and programs it (R348). Without VDD_NVM nothing is programmed. -/
def bootAdvance (s : State) : State :=
  let b := bootMax s
  let c := min ((b.map (·.2)).getD 0 + 1) (2 ^ 23 - 1)
  let k := match b with | some x => x.1 / 2048 | none => 30
  let w : Word := pack [(32, 2 ^ 32 - 1 - c), (0, c)]
  let s := { s with nv := { s.nv with boot := BitVec.ofNat 23 c } }
  if !s.nv.vdd then s
  else
    match bootFree s k with
    | some a => nvPut (wordBytes w) a s
    | none => nvPut (wordBytes w) (2048 * (61 - k)) (nvErase (61 - k) s)

end Sys2Proof.Machine
end

