-- ==== Sys2Proof/Machine/RingCtl.lean ====
section
/-! DEFINITION. The registers of the rings (R268, R276) and of the peer regions (R284). -/

namespace Sys2Proof.Machine

/-! ## Rings -/

/-- Whether an owner works for ring `r`. -/
def ringOwner (r : Nat) : Owner → Bool
  | .ladleRd q _ | .ladleWr q | .fetch q | .ringBar q _ => q.toNat == r
  | _ => false

/-- A load of ring `r`. -/
def loadOf (r : Nat) (j : Job) : Bool := match j with | .load q => q.toNat == r | _ => false

/-- EN of a ring rises: count, HEAD and TAIL are 0 and the ring is IDLE (R268). A command in progress still completes and writes its
record, and the ring shows IDLE meanwhile; a fetch still out belongs to no one. -/
def ringOn (r : Nat) (s : State) : State :=
  if (ringAt s r).st == .executing then
    modRing r (fun x => { x with count := 0, tail := 0, doneCnt := 0, disabling := false, renew := true }) s
  else modRing r (fun x => { st := .idle, cdone := x.cdone, serial := x.serial }) (orphan (ringOwner r) s)

/-- EN of a ring falls: no more is fetched, and the ring is OFF once its command has completed (R268). -/
def ringOff (r : Nat) (s : State) : State :=
  modRing r (fun x =>
    match x.st with
    | .executing => { x with disabling := true }
    | .fetching => if x.gap then { x with st := .off, gap := false } else { x with disabling := true }
    | _ => { x with st := .off }) s

/-- A write of RING_CFG (R268): while the ring is not OFF only EN may change. -/
def ringCfgOp (o : Org) (r : Nat) (v : Word) (s : State) : State :=
  let old := rd s (.ringCfg r)
  let new := stored o (.ringCfg r) v s
  if (ringAt s r).st != .off && (old ^^^ new) &&& ~~~ 1 != 0 then refuseReg o (.ringCfg r) v s
  else
    let s := wr s (.ringCfg r) new
    if !bit old 0 && bit new 0 then ringOn r s else if bit old 0 && !bit new 0 then ringOff r s else s

/-- RING_ENABLE, R268: a write of RING_CFG with EN = 1. -/
def execRingEnable (o : Org) (r : BitVec 4) (v : Word) (s : State) : Out :=
  regCmd o (.ringCfg r.toNat) (.ringEnable o r v) (ringCfgOp o r.toNat (v ||| 1)) s
/-- RING_DISABLE, R268: a write of RING_CFG with EN = 0. -/
def execRingDisable (o : Org) (r : BitVec 4) (v : Word) (s : State) : Out :=
  regCmd o (.ringCfg r.toNat) (.ringDisable o r v) (ringCfgOp o r.toNat (v &&& ~~~ 1)) s

/-- A write of RING_BASE (R268). -/
def ringBaseOp (o : Org) (r : Nat) (v : Word) (s : State) : State :=
  if (ringAt s r).st != .off then refuseReg o (.ringBase r) v s else plainWrite o (.ringBase r) v s

/-- A write of RING_DB (R276, R277). -/
def ringDbOp (o : Org) (r : Nat) (v : Word) (s : State) : State :=
  if o.size == .high then s
  else
    let t := fld v 15 0
    let n := ringN s r
    let x := ringAt s r
    let ahead (k : Nat) : Nat := (k + 2 * n - ringHead s r) % (2 * n)
    if t < 2 * n ∧ ahead t ≤ n ∧ ahead x.tail.toNat ≤ ahead t then
      modRing r (fun x =>
        let x := { x with tail := BitVec.ofNat 16 t }
        if x.st == .stalled then { x with st := .fetching, gap := true, tries := 0 } else x) s
    else refuseReg o (.ringDb r) v s

/-- RING_DB_WRITE, R276. -/
def execRingDbWrite (o : Org) (r : BitVec 4) (v : Word) (s : State) : Out :=
  regCmd o (.ringDb r.toNat) (.ringDbWrite o r v) (ringDbOp o r.toNat v) s

/-! ## Peer regions -/

/-- Changes peer region `k`. -/
def modRegion (k : Nat) (f : Region → Region) (s : State) : State :=
  { s with regions := vset s.regions k (f (vget {} s.regions k)) }

/-- Whether the host memory side of a channel that is not IDLE lies in region `k` (R284): its contiguous side or list, what it is
still to move and what it has moved. -/
def regionUsed (s : State) (k : Nat) : Bool :=
  let meets (a len : Nat) : Bool := (regionsMet s a len).any fun x => x.1 == k
  (List.range 32).any fun c =>
    let i : ChanId := .hub (BitVec.ofNat 6 c)
    let h := chanAt s i
    h.st != .idle &&
      ((hbaRanges s i h.act).any (fun q => meets q.1 q.2) || h.x.met.contains k
       || (h.x.src ++ h.x.dst).any fun p => p.sp == .hba && meets p.addr p.len)

/-- The path of a region by its mode (R284): a probe, or the path at once. No Snoop of the probe is 0 (DESIGN CHOICE, log entry 83). -/
def regionOn (k : Nat) (s : State) : State :=
  let m := fld (rd s (.p2pCtl k)) 63 62
  let s := modRegion k (fun g => { g with ready := m != 0, bounce := m ≥ 2, pstat := 0 }) s
  let s := orphan (fun o => o == .probe (BitVec.ofNat 3 k)) s
  if m = 0 then
    send (rdMsg .hbp (rd s (.p2pBase k)).toNat 1 2) (some (.probe (BitVec.ofNat 3 k))) s
  else s

/-- A write of a register of region `k` (R284). -/
def p2pOp (o : Org) (r : Reg) (k : Nat) (v : Word) (s : State) : State :=
  let en := bit (rd s (.p2pCtl k)) 0
  if en && regionUsed s k then refuseReg o r v s
  else
    let s := plainWrite o r v s
    if !en && bit (rd s (.p2pCtl k)) 0 then regionOn k s else s

/-- P2P_ENABLE, R284: a write of P2P_CTL with EN = 1. -/
def execP2pEnable (o : Org) (k : BitVec 3) (v : Word) (s : State) : Out :=
  regCmd o (.p2pCtl k.toNat) (.p2pEnable o k v) (p2pOp o (.p2pCtl k.toNat) k.toNat (v ||| 1)) s

/-- The answer of a probe (R284). -/
def probeDone (k : Nat) (stat : Nat) (s : State) : State :=
  let s := modRegion k (fun g => { g with ready := true, bounce := stat != 0, pstat := BitVec.ofNat 4 stat }) s
  if stat = 0 then s else { s with evt := s.evt ||| 1 }

end Sys2Proof.Machine
end

