-- ==== Sys2Proof/Machine/Power.lean ====
section
/-! DEFINITION. Modes (R369 to R374), resets (R364, R365), the aon-only state (R359, R360), clocks (R351 to R355), the churns'
power states (R356 to R358), and the power cap (R361 to R363). -/

namespace Sys2Proof.Machine

/-! ## Modes -/

/-- Enters a mode that is not STARTUP; TEST zeroizes every key slot (R374), and the RWL fields are locked until cold reset (R365,
R372). -/
def enterMode (m : Nat) (s : State) : State :=
  let s := if m = 3 then zeroizeAll s else s
  { s with sys := { s.sys with mode := BitVec.ofNat 3 m, locked := true } }

/-- Whether a transition by MODE_CTL.REQ is one of R370 and its condition holds. -/
def modeOk (s : State) (req : Nat) : Bool :=
  let stopped := s.sep.st != .running
  match s.sys.mode.toNat, req with
  | 1, 2 | 2, 1 => true
  | 1, 4 | 2, 4 => stopped
  | 4, 1 | 4, 2 => !s.snap.rbusy
  | 1, 3 | 2, 3 | 4, 3 => stopped
  | _, _ => false

/-- A write of MODE_CTL (R370). -/
def modeOp (o : Org) (v : Word) (s : State) : State :=
  let req := fld (v &&& sizeMask o.size) 2 0
  if req = 0 then plainWrite o .modeCtl v s
  else if modeOk s req then enterMode req (if storeMask o .modeCtl s = 0 then s else plainWrite o .modeCtl v s)
  else refuseReg o .modeCtl v s

/-- MODE_REQUEST, R370: a write of MODE_CTL. -/
def execModeRequest (o : Org) (v : Word) (s : State) : Out := regCmd o .modeCtl (.modeRequest o v) (modeOp o v) s

/-- The check of the cellar registers when STARTUP ends (R53). -/
def cellarCheck (s : State) : State :=
  let z := celSize s
  let base := (rd s .celBase).toNat
  let what := recWord none 0xFF 0 1
  if z = 0 then { s with hasCellar := false }
  else if base + z * 2 ^ 25 > dpaEnd then raise 0x14 what (BitVec.ofNat 64 (Reg.off .celSize)) { s with hasCellar := false }
  else if mapChunks s ≥ z then raise 0x14 what (BitVec.ofNat 64 (Reg.off .celMap)) { s with hasCellar := false }
  else
    let s := { s with hasCellar := true }
    plan (fun p => { p with freeMin := if minFree s < p.freeMin.toNat then BitVec.ofNat 17 (minFree s) else p.freeMin }) s

/-- STARTUP ends in mode `m` (R53, R370). -/
def leaveTo (m : Nat) (s : State) : State := enterMode m (cellarCheck s)

/-- The end of STARTUP (R365, R368, R370). -/
def leaveOp (s : State) : State :=
  let n := fld (rd s .modeCtl) 6 4
  leaveTo (if 1 ≤ n ∧ n ≤ 4 then n else 1) s

/-- TEST_ENTER, R374: the wrapper's instruction, from any mode but TEST; from STARTUP it ends it (log entry 91). It waits for fclk
(R353). -/
def execTestEnter (s : State) : Out :=
  if inReset s || s.sys.mode == 3 then .next s
  else if !fclkOn s then done (hold .testEnter s)
  else done (if s.sys.mode = 0 then leaveTo 3 s else enterMode 3 s)

/-! ## Resets -/

/-- Closes every link the block holds open (R48): what is in flight is abandoned, and no credit is left. -/
def closeLinks (s : State) : State :=
  { s with
    ports := s.ports.map fun p => { inUp := p.inUp }
    inflight := [], late := [], txq := [], dead := [], bridges := [], wins := [] }

/-- Opens every port: p_LINKUP_O rises, and a link whose partner is up comes up with the block's credits (R49). -/
def rxCredits (i : Nat) : Nat × Nat :=
  if i < 32 then (0, 0)
  else if i < 64 then (64, 1024)
  else match i with | 64 => (64, 64) | 65 => (256, 2048) | 66 => (8, 8) | _ => (128, 128)

/-- A link that is up on both sides has the credits of R39. -/
def portUp (i : Nat) (p : Port) : Port :=
  if p.outUp && p.inUp then
    { p with everUp := true, discard := false, rxHdr := (rxCredits i).1, rxDat := (rxCredits i).2, owed := 0 }
  else p

/-- What a link that came up lets go: held interrupt messages (R288). -/
def linkOpened (s : State) : State := (List.range 8).foldl irqRelease s

/-- p_LINKUP_O rises on every port (R366). -/
def openPorts (s : State) : State :=
  linkOpened ((List.range 68).foldl (fun s i =>
    { s with ports := vset s.ports i (portUp i { vget {} s.ports i with outUp := true }) }) s)

/-- What lies outside the block, or in the non-volatile store, and outlives a cold reset. PLAN_FREE_MIN is the value of the register
map and not the minimum of R130 (DESIGN CHOICE, log entry 75). -/
def coldReset (s : State) : State :=
  let s := nvTear s
  { State.reset with
    pending := s.pending
    sent := s.sent
    freeCtr := s.freeCtr
    nv := { mem := s.nv.mem, vdd := s.nv.vdd, torn := s.nv.torn }
    ports := s.ports.map fun p => { inUp := p.inUp }
    sys := { cold := s.sys.cold, warm := s.sys.warm, aonLow := s.sys.aonLow, ref := s.sys.ref, droop := s.sys.droop } }

/-- A channel after warm reset (R239). -/
def chanWarm (c : Chan) : Chan := { sh := c.sh }

/-- A ring after warm reset: its command in progress is abandoned (log entry 20). -/
def ringWarm (x : Ring) : Ring :=
  { count := x.count, tail := x.tail, cdone := x.cdone, doneCnt := x.doneCnt
    st := if x.st == .off || x.disabling then .off else .idle }

/-- A generation after warm reset (R152). -/
def genWarm (g : Gen) : Gen := if g.st == .live then { g with refs := 0 } else {}

/-- A churn after warm reset (R152, R186, R211, R239, R310, R364). -/
def churnWarm (c : Churn) : Churn :=
  { c with
    waking := false, sleepy := false, duty := 0, credit := 256, coming := [], queue := [], run := [], chunks := [], opens := []
    lines := [], mapPend := [], tags := [], sects := [], mpLast := [], fpLast := 0, gens := c.gens.map genWarm, vslots := Vector.replicate 8 {}, loc := []
    pails := c.pails.map chanWarm, lslRaw := 0, lslSect := 0, whey := 0 }

/-- The separator after warm reset (R80). -/
def sepWarm (x : Sep) : Sep :=
  { x with pc := 0, st := .halted, wait := 0, inh := false, held := none, stepping := false, mapStall := none, layer := 0, astat := 0 }

/-- While VDD_CORE is low every churn is held at DUTY 1 (R363). -/
def droopHold (s : State) : State :=
  if s.sys.droop then
    { s with churns := s.churns.map fun c => { c with duty := 1 }, sys := { s.sys with capEvt := s.sys.capEvt ||| 4 } }
  else s

/-- A codebook or table command still waiting for a churn is abandoned: BUSY clears, and DONE shows the churns it reached (R365; log
entry 85). -/
def tabsWarm (s : State) : State :=
  { s with
    cbJob := {}, ftJob := {}
    cbStat := if s.cbJob.left = 0 then s.cbStat else setFld s.cbStat 0 0 0
    ftStat := if s.ftJob.left = 0 then s.ftStat else setFld s.ftStat 0 0 0 }

/-- Warm reset takes effect (R364). -/
def warmReset (s : State) : State :=
  let s := if s.snap.rbusy then restoreAbort 4 s else s
  let s := if s.snap.busy then (let t := snapForget s; { t with snap := { t.snap with busy := false } }) else s
  let s := if s.step.open_ then stepClose s else s
  let s := if s.sys.mode = 3 then { s with keys := Vector.replicate 8 {} } else s
  let s := tabsWarm (closeLinks s)
  let s := { s with
    sep := sepWarm s.sep
    tickets := mmap {} (fun _ k => { seq := k.seq }) s.tickets
    deferred := [], dir := [], cold := [], ladder := {}, churns := s.churns.map churnWarm, tasks := [], flits := []
    ctxs := mmap {} (fun _ x => { w := x.w }) s.ctxs
    pairs := [], hub := s.hub.map chanWarm, sysWait := [], rings := s.rings.map ringWarm, readback := []
    irqReq := 0, irqPend := 0, irqOut := 0, holds := [], copies := [], units := [], peerFail := []
    step := { s.step with sweep := false, flipped := false, backs := [] }
    sys := { s.sys with
      phase := 0, mode := 0, warmStart := true, aons := false, aonWaking := false, pailSum := BitVec.ofNat 32 (chSum s)
      pll := if s.sys.phase.toNat < 2 && !s.sys.warmStart then rd s .pllCfg else s.sys.pll } }
  droopHold (planClear s)

/-- Start-up begins once neither reset is asserted (R366): after a warm reset at phase 3 (R367). A voltage that is still low holds the
churns (R363). -/
def startUp (s : State) : State :=
  if inReset s || s.sys.phase != 0 then s
  else droopHold { s with sys := { s.sys with phase := if s.sys.warmStart then 3 else 1 } }

/-- PORST_N_ASSERT, R364. -/
def execPorstNAssert (s : State) : Out := done { coldReset s with sys := { (coldReset s).sys with cold := true } }

/-- PORST_N_RELEASE, R366. -/
def execPorstNRelease (s : State) : Out := done (startUp { s with sys := { s.sys with cold := false } })

/-- WRST_N_ASSERT, R364: a cold reset in progress wins. -/
def execWrstNAssert (s : State) : Out :=
  if s.sys.warm then .next s
  else
    let s := if s.sys.cold || s.sys.aonLow then s else warmReset s
    done { s with sys := { s.sys with warm := true } }

/-- WRST_N_RELEASE, R367. -/
def execWrstNRelease (s : State) : Out := done (startUp { s with sys := { s.sys with warm := false } })

/-- VDD_AON_LOW, R363: the block acts as for a cold reset. -/
def execVddAonLow (s : State) : Out := done { coldReset s with sys := { (coldReset s).sys with aonLow := true } }

/-- POWER_ON, R363, R364: VDD_AON rises or recovers; the block leaves cold reset if PORST_N is high. -/
def execPowerOn (s : State) : Out :=
  let s := if s.sys.aonLow then s else coldReset s
  done (startUp { s with sys := { s.sys with aonLow := false } })

/-! ## System control -/

/-- Whether the aon-only state may be entered (R359). -/
def aonOk (s : State) : Bool :=
  (s.churns.toList.all fun c => c.pwr == .off && !c.waking) && s.sep.st == .halted && !s.step.open_
  && ((List.range 16).all fun r => (ringAt s r).st == .off || ringHead s r == (ringAt s r).tail.toNat)
  && (s.hub.toList.all fun c => c.st == .idle) && !s.snap.busy && !s.snap.rbusy

/-- Enters the aon-only state (R359). -/
def aonEnter (s : State) : State :=
  let s := closeLinks s
  { s with sys := { s.sys with aons := true, aonWaking := false, lock := false } }

/-- A write of SYS_CTL: AUTO is stored, then WRST, LEAVE and AONONLY act (R359, R364, R368). The warm reset pulse runs whole
(log entry 21). -/
def sysCtlOp (o : Org) (v : Word) (s : State) : State :=
  let w := v &&& sizeMask o.size
  let leaves := bit w 0
  let aon := bit w 2
  if leaves && !(s.sys.phase == 8 && s.sys.mode == 0) then refuseReg o .sysCtl v s
  else if aon && !aonOk s then refuseReg o .sysCtl v s
  else
    let acts := leaves || aon || bit w 1
    let s1 := if acts && storeMask o .sysCtl s == 0 then s else plainWrite o .sysCtl v s
    let s1 := if acts && s1.logTotal == s.logTotal then logWrite o (Reg.off .sysCtl) 0 (rd s .sysCtl) (rd s1 .sysCtl) s1 else s1
    if bit w 1 then startUp (warmReset s1)
    else
      let s1 := if leaves then leaveOp s1 else s1
      if aon then aonEnter s1 else s1

/-- The row command of a write of SYS_CTL that sets bit `k` and leaves AUTO as it is. -/
def sysCmd (o : Org) (k : Nat) (s : State) : State := sysCtlOp o ((rd s .sysCtl &&& 8) ||| BitVec.ofNat 64 (2 ^ k)) s

/-- A write of SYS_CTL with LEAVE = 1 that reaches the block before READY: it is refused, where any other request is not taken yet
(R366, R368). -/
def leaveEarly (o : Org) (v : Word) (s : State) : Bool := !inReset s && s.sys.phase != 8 && bit (v &&& sizeMask o.size) 0

/-- A write of SYS_CTL with LEAVE = 1 before READY is refused, and without fclk waits for it (R353, R368). -/
def leaveGate (o : Org) (v : Word) (c : Instr) (early : State → State) (f : State → Out) (s : State) : Out :=
  if leaveEarly o v s then done (if fclkOn s then early s else hold c s) else f s

/-- LEAVE, R368. -/
def execLeave (o : Org) (s : State) : Out :=
  leaveGate o 1 (.leave o) (fun s => logIf o .sysCtl s (sysCmd o 0 s)) (regCmd o .sysCtl (.leave o) (sysCmd o 0)) s
/-- WRST, R364. -/
def execWrst (o : Org) (s : State) : Out := regCmd o .sysCtl (.wrst o) (sysCmd o 1) s
/-- AONONLY, R359. -/
def execAononly (o : Org) (s : State) : Out := regCmd o .sysCtl (.aononly o) (sysCmd o 2) s

/-- Whether a cause ends the aon-only state now (R360): a request that waits in its bridge, a link that has risen, or the timer. -/
def aonCause (c : WakeCause) (s : State) : Bool :=
  match c with
  | .request => s.bridges.any callsBlock
  | .linkRise => s.sys.aonWaking
  | .timer => let w := (rd s .wakeAt).toNat; w != 0 && decide (w ≤ s.sys.aon.toNat)

/-- AON_WAKE, R360: the PLL is started. -/
def execAonWake (cause : WakeCause) (s : State) : Out :=
  if s.sys.aons && !inReset s && aonCause cause s then done { s with sys := { s.sys with aonWaking := true } } else .next s

/-! ## Clocks -/

/-- REFLOSS, R355. -/
def execRefloss (s : State) : Out :=
  if s.sys.ref then
    done { s with sys := { s.sys with ref := false, lock := false, refloss := s.sys.refloss || !(s.sys.cold || s.sys.aonLow) } }
  else .next s

/-- REFCLK_RETURN, R355. -/
def execRefclkReturn (s : State) : Out := done { s with sys := { s.sys with ref := true } }

/-- N of PLL_CFG is out of range (R351). -/
def badN (w : Word) : Bool := fld w 7 0 < 32 || 88 < fld w 7 0

/-- Whether the PLL is started and not locked (R353, R355, R366). -/
def locking (s : State) : Bool :=
  s.sys.ref && !s.sys.lock && !s.sys.cold && !s.sys.aonLow && (2 ≤ s.sys.phase.toNat || s.sys.warmStart)
  && (!s.sys.aons || s.sys.aonWaking)

/-! ## Churn power -/

/-- The contents of a churn's SRAM and flops are lost (R356, R388). What the hub and the stack hold for it, and what lies in its
bridge, stays. DESIGN CHOICE (log entry 84): so do the generation tags, for which R149 has no event OFF. -/
def churnLost (c : Churn) : Churn :=
  { pwr := .off, duty := c.duty, est := c.est, temp := c.temp, credit := c.credit, coming := c.coming
    chunks := c.chunks, opens := c.opens, tags := c.tags, sects := c.sects }

/-- Whether a churn is idle as R357 requires: its write-backs are no work of its own. -/
def churnQuiet (s : State) (n : Nat) : Bool :=
  let c := churnAt s n
  c.queue.isEmpty && c.run.isEmpty && (c.pails.toList.all fun p => p.st == .idle)
  && !(s.txq.any fun x => (x.m.port == mpP n || x.m.port == fpP n) && match x.owner with | some (.mapWb ..) => false | _ => true)
  && !(s.bridges.any fun i => match cmdPort i with | some (p, _) => p == fpP n | none => false)

/-- Whether a churn may go to OFF (R358). -/
def offOk (s : State) (n : Nat) : Bool :=
  let c := churnAt s n
  (c.pwr == .sleep || c.pwr == .idle)
  && (c.gens.toList.all fun g => g.st == .free) && (c.banks.toList.all fun b => b.a.isNone && b.b.isNone)
  && (c.vslots.toList.all fun x => x.v.isEmpty)
  && !((enabledPrms s).any fun p => p.mask.getLsbD n) && churnQuiet s n

/-- A write of CH_PWR_CTL (R356 to R358, R388). -/
def chPwrOp (o : Org) (n : Nat) (v : Word) (s : State) : State :=
  let w := v &&& sizeMask o.size
  if bit w 2 && !offOk s n then refuseReg o (.chPwrCtl n) v s
  else
    let s := plainWrite o (.chPwrCtl n) v s
    let s := if bit w 2 then modChurn n churnLost s else s
    if bit w 1 then wake n s else if bit (rd s (.chPwrCtl n)) 0 then s else modChurn n (fun c => { c with sleepy := false }) s

/-- OFF, R358: a write of CH_PWR_CTL.OFF = 1 that leaves the other fields as they are. -/
def execOff (o : Org) (n : BitVec 5) (s : State) : Out :=
  regCmd o (.chPwrCtl n.toNat) (.off o n) (fun s => chPwrOp o n.toNat (rd s (.chPwrCtl n.toNat) ||| 4) s) s
/-- HOLD, R356: a write of CH_PWR_CTL. -/
def execHold (o : Org) (n : BitVec 5) (v : Word) (s : State) : Out :=
  regCmd o (.chPwrCtl n.toNat) (.hold o n v) (chPwrOp o n.toNat v) s

/-- Whether a cause of R356 for churn `n` stands. -/
def wakeCause (s : State) (n : Nat) : Bool := !churnQuiet s n || !(churnAt s n).coming.isEmpty || (churnAt s n).waking

/-- CHURN_WAKE, R356. -/
def execChurnWake (n : BitVec 5) (s : State) : Out := inner (fun s => if wakeCause s n.toNat then wake n.toNat s else s) s

/-- The lane groups that are up when a wake ends (R356). -/
def lanesAfter (c : Churn) : BitVec 16 := match c.pwr with | .sleep => 1 | .off => 0xFFFF | _ => c.lgup

/-- The end of a churn's wake: its ports and its units go on (R356). -/
def wakeEnd (n : Nat) (s : State) : State :=
  let c := churnAt s n
  if !c.waking || c.pwr == .active then s
  else
    let s := tabWoken n (setChurn s n { c with pwr := .active, waking := false, lgup := lanesAfter c })
    churnGo n (pumpAll (fpP n) (pumpAll (mpP n) s))

/-- CHURN_WAKE_DONE, R356. -/
def execChurnWakeDone (n : BitVec 5) (s : State) : Out := inner (wakeEnd n.toNat) s

/-- Whether a churn is in IDLE or ACTIVE. -/
def awake (c : Churn) : Bool := c.pwr == .active || c.pwr == .idle

/-- LANE_GROUP_UP, R356: the lane groups power up in order, also while the churn is IDLE. -/
def execLaneGroupUp (n : BitVec 5) (lg : BitVec 4) (s : State) : Out :=
  inner (fun s =>
    let c := churnAt s n.toNat
    if awake c && c.lgup.toNat + 1 == 2 ^ lg.toNat then
      churnGo n.toNat (setChurn s n.toNat { c with lgup := c.lgup ||| BitVec.ofNat 16 (2 ^ lg.toNat) })
    else s) s

/-- CHURN_IDLE, R357. -/
def execChurnIdle (n : BitVec 5) (s : State) : Out :=
  inner (fun s =>
    if (churnAt s n.toNat).pwr == .active && churnQuiet s n.toNat then modChurn n.toNat (fun c => { c with pwr := .idle }) s
    else s) s

/-- The entries whose map lines are dirty in a churn. -/
def dirtyEntries (c : Churn) : List Nat := (c.lines.filter (·.dirty)).map (·.e)

/-- Whether a write-back of churn `n`'s map lines is unanswered. -/
def backOwed (s : State) (n : Nat) : Bool := owed s fun o => match o with | .mapWb m _ _ => m.toNat == n | _ => false

/-- The end of the power-down of churn `n`, once no map line waits to be written back; a cause of R356 ends it first (R357). -/
def sleepEnd (n : Nat) (s : State) : State :=
  let c := churnAt s n
  if !c.sleepy then s
  else if c.pwr != .idle || wakeCause s n then setChurn s n { c with sleepy := false }
  else if !(dirtyEntries c).isEmpty || !c.mapPend.isEmpty || backOwed s n then s
  else setChurn s n { c with pwr := .sleep, lgup := 0, sleepy := false }

/-- SLP_DLY expires (R357): the dirty lines are written back, and the churn is in SLEEP when they are. -/
def sleepOp (n : Nat) (s : State) : State :=
  let c := churnAt s n
  let ctl := rd s (.chPwrCtl n)
  if c.pwr != .idle || !bit ctl 0 || bit ctl 1 || wakeCause s n then s
  else sleepEnd n ((dirtyEntries c).foldl (fun s e => mapFlush n e s) (setChurn s n { c with sleepy := true }))

/-- CHURN_SLEEP, R357. -/
def execChurnSleep (n : BitVec 5) (s : State) : Out := inner (sleepOp n.toNat) s

/-! ## Power cap, temperature and voltage -/

/-- DUTY in eighths: 0 stands for 8. -/
def dutyOf (c : Churn) : Nat := if c.duty = 0 then 8 else c.duty.toNat

/-- A churn with its DUTY set. -/
def withDuty (d : Nat) (c : Churn) : Churn := { c with duty := BitVec.ofNat 3 d }

/-- The churn with the largest key among those chosen, the lower number on a tie. -/
def bestChurn (s : State) (p : Churn → Bool) (key : Churn → Nat) : Option Nat :=
  (List.range 32).foldl (fun (a : Option Nat) n =>
    if p (churnAt s n) then
      match a with
      | none => some n
      | some m => if key (churnAt s m) < key (churnAt s n) then some n else a
    else a) none

/-- TLIM in °C. -/
def tlim (s : State) : Nat := fld (rd s .thermCfg) 7 0

/-- The adjustment of R361 to block estimate `e`; a churn regains duty only under R363. -/
def capAdjust (e : Nat) (s : State) : State :=
  let cap := fld (rd s .pwrCap) 11 0
  let below (k : Nat) (s : State) : State := { s with sys := { s.sys with below := k } }
  if cap = 0 then below 0 s
  else
    let s :=
      if e > 4 * (cap + cap / 8) then
        below 0 ((List.range 32).foldl (fun s n =>
          let c := churnAt s n
          if awake c && 1 < dutyOf c then setChurn s n (withDuty (dutyOf c - 1) c) else s) s)
      else if e > 4 * cap then
        below 0 (match bestChurn s (fun c => decide (1 < dutyOf c)) (fun c => c.est.toNat) with
          | some n => modChurn n (fun c => withDuty (dutyOf c - 1) c) s
          | none => s)
      else if e < 4 * (cap - cap / 16) then
        if s.sys.below + 1 < 8 then below (s.sys.below + 1) s
        else
          below 0 (match bestChurn s (fun c => decide (dutyOf c < 8)) (fun c => 8 - dutyOf c) with
            | some n => modChurn n (fun c => if c.temp.toNat + 5 < tlim s then withDuty (dutyOf c + 1) c else c) s
            | none => s)
      else below 0 s
    if e > 4 * cap && s.churns.toList.all (fun c => !awake c || dutyOf c == 1) then
      { s with sys := { s.sys with capEvt := s.sys.capEvt ||| 1 } }
    else s

/-- The throttling of R363 by temperature and voltage. -/
def heatAdjust (s : State) : State :=
  let lim := tlim s
  let hot := s.churns.toList.any fun c => 125 ≤ c.temp.toNat
  let s := { s with churns := s.churns.map fun c =>
    if s.sys.droop || 125 ≤ c.temp.toNat then withDuty 1 c
    else if lim ≤ c.temp.toNat then withDuty (max 1 (dutyOf c - 1)) c else c }
  if hot then { s with sys := { s.sys with capEvt := s.sys.capEvt ||| 2 } } else s

/-- The sensors' and estimators' values of a window. DESIGN CHOICE (log entry 90): the block's estimate saturates at 65,535. -/
def senseWindow (hubEst : BitVec 16) (est : List (BitVec 16)) (temp : List Byte) (s : State) : Nat × State :=
  let s := (List.range 32).foldl (fun s n => modChurn n (fun c => { c with est := est.getD n 0, temp := temp.getD n 0 }) s) s
  let e := s.churns.toList.foldl (fun a c => a + c.est.toNat) hubEst.toNat
  (e, { s with sys := { s.sys with blockEst := BitVec.ofNat 16 (min e 65535) } })

/-- CAP_WINDOW, R361, R363: the estimates and temperatures are inputs. -/
def execCapWindow (hubEst : BitVec 16) (est : List (BitVec 16)) (temp : List Byte) (s : State) : Out :=
  inner (fun s => let x := senseWindow hubEst est temp s; heatAdjust (capAdjust x.1 x.2)) s

/-- VDROOP, R363: every churn is held at DUTY 1. -/
def execVdroop (s : State) : Out :=
  let s := { s with sys := { s.sys with droop := true } }
  if s.sys.cold || s.sys.aonLow then .next s else done (droopHold s)

/-- VDROOP_END, R363. -/
def execVdroopEnd (s : State) : Out := done { s with sys := { s.sys with droop := false } }

end Sys2Proof.Machine
end

