-- ==== Sys2Proof/Machine/RegWrite.lean ====
section
/-! DEFINITION. A write of any register of the map (R7, R8, R382 to R389), and the records of the non-volatile image (R346). -/

namespace Sys2Proof.Machine

/-- A write of a shadow word of a channel (R213, R216, R233). -/
def shadowOp (o : Org) (i : ChanId) (k : Nat) (v : Word) (s : State) : State :=
  let r : Reg := .chan i k
  if !hostOwned s i || (chanAt s i).pend then refuseReg o r v s
  else
    let w := mergeW (chanWord s i k) v ((Reg.desc r).rw &&& sizeMask o.size)
    modChan i (fun c => { c with sh :=
      match k with
      | 0 => { c.sh with src := w }
      | 1 => { c.sh with dst := w }
      | 2 => { c.sh with len := w }
      | 3 => { c.sh with cfg := w }
      | 4 => { c.sh with sgl := w }
      | _ => { c.sh with sig := w } }) s

/-- A write of a channel's STAT clears DONE, FLT and ABT (R233); host software cannot write those of channels 24 to 31 (R214). One of a
pail's clears the bit of CH_SUM that a warm reset kept (R379; log entry 87). -/
def chanStatOp (i : ChanId) (w : Word) (s : State) : State :=
  let s := match i with
    | .pail n _ => { s with sys := { s.sys with pailSum := s.sys.pailSum &&& ~~~ BitVec.ofNat 32 (2 ^ n.toNat) } }
    | _ => s
  if isSystem i then s
  else modChan i (fun c => { c with done := c.done && !bit w 3, flt := c.flt && !bit w 4, abt := c.abt && !bit w 5 }) s

/-- A write of SNAP_CTL (R323). -/
def snapCtlOp (o : Org) (v : Word) (s : State) : State :=
  if s.snap.busy || s.snap.rbusy then ignoreWrite o .snapCtl v s
  else if o.size == .high then s
  else { s with snap := { s.snap with area := bit v 0 } }

/-- What a write of a register does; `w` holds the bits of `v` that it addresses. -/
def regOp (o : Org) (r : Reg) (v w : Word) (s : State) : State :=
  match r with
  | .sysCtl => sysCtlOp o v s
  | .sysStat => { s with sys := { s.sys with refloss := s.sys.refloss && !bit w 5, cfgerr := s.sys.cfgerr && !bit w 6 } }
  | .modeCtl => modeOp o v s
  | .pwrStat => { s with sys := { s.sys with capEvt := s.sys.capEvt &&& ~~~ w.setWidth 3 } }
  | .fltStat => fltClear o v s
  | .evtStat => { s with evt := s.evt &&& ~~~ w.setWidth 2 }
  | .irqMsgCtl i => irqCtlOp o i v s
  | .sepCtl => sepCtlOp o v s
  | .sepPc => sepPcOp o v s
  | .celWm => ladderEval (plainWrite o r v s)
  | .celLadder => ladderEval (plainWrite o r v s)
  | .coldBase => coldOp o r v s
  | .coldSize => coldOp o r v s
  | .dirSel => dirSelOp o v s
  | .planCtl => planCtlOp o v s
  | .cbCmd => cbCmd o v s
  | .ftCmd => ftCmd o v s
  | .cbStage _ => if s.cbJob.left = 0 then plainWrite o r v s else cbBusy o r v s
  | .ftStage _ => if s.ftJob.left = 0 then plainWrite o r v s else ftBusy o r v s
  | .ctxCmd => ctxCmd o w s
  | .stripeWt k h => stripeOp o k h v s
  | .mvHown => hownWrite o v s
  | .hmvBnc => { s with hmvBnc := s.hmvBnc &&& ~~~ w.setWidth 32 }
  | .ringBase k => ringBaseOp o k v s
  | .ringCfg k => ringCfgOp o k v s
  | .ringDb k => ringDbOp o k v s
  | .ringStat k => modRing k (fun x => { x with cdone := x.cdone && !bit w 19 }) s
  | .p2pBase k => p2pOp o r k v s
  | .p2pCtl k => p2pOp o r k v s
  | .p2pBnc k => p2pOp o r k v s
  | .prmBuf0 k => prmOp o r k v s
  | .prmBuf1 k => prmOp o r k v s
  | .prmCfg k => prmOp o r k v s
  | .prmSize k => prmOp o r k v s
  | .prmHold k => holdOp o k v s
  | .schedCnt _ => if s.step.open_ then refuseReg o r v s else plainWrite o r v s
  | .stepCmd => stepCmd o w s
  | .snapCmd => snapCmd o w s
  | .snapCtl => snapCtlOp o v s
  | .keyCtl => keyCtlOp o v s
  | .keySlot k j => keyOp o k j v s
  | .nvCmd => nvCmd o v s
  | .clSel => clSelOp o v s
  | .chPwrCtl n => chPwrOp o n v s
  | .chAflagCtl n => if bit w 0 then popOp n s else s
  | .chan i k =>
    if k ≤ 5 then shadowOp o i k v s else if k = 6 then chanCtl o i w s else if k = 7 then chanStatOp i w s else s
  | .imem i => imemOp o i v s
  | .dmem i => dmemOp o i v s
  | _ => if (Reg.desc r).rw = 0 ∧ (Reg.desc r).rwl = 0 then s else plainWrite o r v s

/-- Skips a record: it is counted, and logged as ignored (R346). -/
def imageSkip (o : Org) (off : Nat) (old v : Word) (s : State) : State :=
  logWrite o off 1 old v { s with nv := { s.nv with skip := satAdd s.nv.skip 1 } }

/-- Whether a write added an entry that was not RESULT 0: it was refused (R346). -/
def writeRefused (s s' : State) : Bool :=
  s'.logTotal != s.logTotal && fld (mget {} s'.log (s.logTotal.toNat % 4096)).w0 63 60 != 0

/-- A write of a register, with its entry in the change log (R349): every record of the image has one, which is skipped where it would
be refused (R346). -/
def regWrite (o : Org) (r : Reg) (v : Word) (s : State) : State :=
  let t := logIf o r s (regOp o r v (v &&& sizeMask o.size) s)
  if o.origin != .image then t
  else if writeRefused s t then imageSkip o (Reg.off r) (regVal s r) v s
  else if t.logTotal = s.logTotal then logWrite o (Reg.off r) 0 (regVal s r) (regVal t r) t
  else t

/-- A write of the word of control space at an offset: no effect where it is unoccupied (R383); one of a register in a churn
wakes the churn and waits for it (R356, R388). `c` is the request that waits. -/
def spaceWrite (c : Instr) (o : Org) (off : Nat) (v : Word) (s : State) : Out :=
  match regAt (off / 8 * 8) with
  | none => hostGate c done s
  | some r =>
    match inChurn r with
    | some n => churnGate n c (fun s => done (regWrite o r v s)) s
    | none => hostGate c (fun s => done (regWrite o r v s)) s

/-- REGISTER_WRITE, R8. -/
def execRegisterWrite (o : Org) (off : BitVec 26) (v : Word) (s : State) : Out :=
  let c : Instr := .registerWrite o off v
  let f := spaceWrite c o off.toNat v
  if off.toNat / 8 * 8 == Reg.off .sysCtl then leaveGate o v c (regWrite o .sysCtl v) f s else f s

/-! ## The image -/

/-- The origin of the image's writes (R349). -/
def imageOrg : Org := { origin := .image, rid := 0, size := .full }

/-- Whether a record may not name a register (R346). A word of a separator memory is no register (R383). -/
def imageBars : Reg → Bool
  | .keySlot .. | .keyCtl | .nvCmd | .nvPage _ | .imem _ | .dmem _ => true
  | _ => false

/-- A word of a record as the change log shows it: those of a key read 0 (R344). -/
def imageShown (r : Reg) (v : Word) : Word := match r with | .keySlot .. => 0 | _ => v

/-- Applies one record of the image (R345, R346), as a CP write would be: one of a register in a churn that is not ACTIVE wakes it and
waits for it, since the churns stay OFF through every phase of start-up (R356, R366, R388; log entry 86). -/
def imageRecord (s : State) (i : Nat) : State :=
  let w := nvWord s (64 + 16 * i)
  let v := nvWord s (72 + 16 * i)
  let off := fld w 25 0
  match regAt off with
  | none => imageSkip imageOrg off 0 v s
  | some r =>
    if fld w 63 26 ≠ 0 ∨ imageBars r then imageSkip imageOrg off (imageShown r (regVal s r)) (imageShown r v) s
    else
      match churnReady r s with
      | some s => hold (.registerWrite imageOrg (BitVec.ofNat 26 off) v) s
      | none => regWrite imageOrg r v s

/-- Applies the image, or notes that the block runs on factory defaults (R346). -/
def imageApply (s : State) : State :=
  if imageOk s then (List.range (imageNr s)).foldl imageRecord s else { s with nv := { s.nv with src := true } }

end Sys2Proof.Machine
end

