-- ==== Sys2Proof/Machine/StartUp.lean ====
section
/-! DEFINITION. The phases of start-up (R366 to R368). -/

namespace Sys2Proof.Machine

/-- Enters a phase. -/
def setPhase (k : Nat) (s : State) : State := { s with sys := { s.sys with phase := BitVec.ofNat 4 k } }

/-- Phase 7: every port opens (R366). -/
def phasePorts (s : State) : State := openPorts (setPhase 7 s)

/-- Phase 6, if PLL_CFG differs from what the PLL was started with: it is started afresh (R353, R366). -/
def phaseRelock (s : State) : State :=
  let w := rd s .pllCfg
  if w = s.sys.pll then phasePorts s
  else let s := setPhase 6 s; { s with sys := { s.sys with lock := false, pll := w } }

/-- READY, in STARTUP mode, which AUTO ends at once (R366 to R368). -/
def phaseReady (s : State) : State :=
  let s := setPhase 8 s
  let s := { s with sys := { s.sys with warmStart := false } }
  if bit (rd s .sysCtl) 3 && s.sys.mode == 0 then leaveOp s else s

/-- The end of the present phase: what comes next (R366, R367). A phase after the first needs fclk. -/
def phaseEnd (s : State) : State :=
  match s.sys.phase.toNat with
  | 1 => if s.sys.ref then (let s := setPhase 2 s; { s with sys := { s.sys with pll := rd s .pllCfg } }) else s
  | 2 => if fclkOn s then setPhase 3 s else s
  | 3 => if !fclkOn s then s else if s.sys.warmStart then phasePorts s else setPhase 4 s
  | 4 => if fclkOn s then setPhase 5 (imageApply s) else s
  | 5 => if fclkOn s then phaseRelock (bootAdvance s) else s
  | 6 => if fclkOn s then phasePorts s else s
  | 7 => if fclkOn s then phaseReady s else s
  | _ => s

/-- STARTUP_PHASE_END, R366. -/
def execStartupPhaseEnd (s : State) : Out := if inReset s then .next s else done (phaseEnd s)

end Sys2Proof.Machine
end

