-- ==== Sys2Proof/Machine/Rings.lean ====
section
/-! DEFINITION. The command rings (R265 to R277, R283): fetches, validity, the commands themselves, completion records and
timeouts, and the answer of a probe (R284). A command's row lets the ring's command go on as far as it can. -/

namespace Sys2Proof.Machine

/-! ## Commands -/

/-- OPC of a command. -/
def cmdOpc (w : List Word) : Nat := fld (nth w 0) 47 40
/-- ARG0. -/
def cmdA (w : List Word) : Word := nth w 1
/-- ARG1. -/
def cmdB (w : List Word) : Word := nth w 2
/-- INLINE word `i`. -/
def cmdInl (w : List Word) (i : Nat) : Word := nth w (4 + i)
/-- The length of a ladle. -/
def ladleLen (w : List Word) : Nat := fld (cmdB w) 6 0
/-- The space of a ladle. -/
def ladleSpace (w : List Word) : Nat := fld (cmdB w) 9 8

/-- Whether a ladle's arguments are in range (R270, R273). -/
def ladleArgs (w : List Word) : Bool :=
  let n := ladleLen w
  let a := (cmdA w).toNat
  decide (1 ≤ n) && decide (n ≤ 96) && ladleSpace w != 3 && fld (cmdB w) 63 10 == 0 && !bit (cmdB w) 7
  && (ladleSpace w != 1 || (n % 8 == 0 && a % 8 == 0)) && (ladleSpace w != 2 || decide (a + n ≤ 524288))

/-- Whether a command has a defined opcode, reserved bits of 0 and arguments in range (R269, R270, R273). -/
def cmdLegal (w : List Word) : Bool :=
  fld (nth w 0) 39 35 == 0 && (nth w 3).toNat % 16 == 0
  && (match cmdOpc w with
      | 0 => true
      | 1 => fld (cmdA w) 63 15 == 0 && decide ((cmdB w).toNat ≤ 8)
      | 2 => fld (cmdB w) 63 40 == 0 && fld (cmdInl w 0) 63 19 == 0
      | 3 => ladleArgs w
      | 4 => ladleArgs w
      | 5 => fld (cmdA w) 63 6 == 0
      | 6 => fld (cmdA w) 63 13 == 0 && fld (cmdB w) 63 16 == 0
      | 7 => decide ((cmdB w).toNat ≤ 1)
      | _ => false)

/-- FLT_REC's word for a fault of the front end (R376). -/
def ringRec : Word := recWord none 0xFA 0 4

/-- The address of the completion record of ring `r`'s command; 0: it asks for none (R269, R275). -/
def recordAddr (s : State) (r : Nat) : Nat := (nth (ringAt s r).cmd 3).toNat / 16 * 16

/-- The completion record of ring `r`'s command: a WRP in class SEQ, with No Snoop from RING_CFG.NS (R275). -/
def recordMsg (s : State) (r status : Nat) (result : Word) : Msg :=
  let w0 := nth (ringAt s r).cmd 0
  let rec0 : Word := pack [(63, 1), (48, fld w0 62 48), (40, fld w0 47 40), (32, status), (0, fld w0 31 0)]
  wrpMsg .hbp (recordAddr s r) (wordsBytes [rec0, result]) 2 (bit (rd s (.ringCfg r)) 2)

/-- Ring `r`'s command does nothing more but wait for the message it ends with to be issued. -/
def ringCloses (r : Nat) (s : State) : State := modRing r (fun x => { x with closing := true }) s

/-- Completes ring `r`'s command (R265, R266, R275): at once where it asks for no record; else its record is sent, and the command is
over, its count, RING_DONE and event with it, when the record is issued. -/
def cmdDone (r : Nat) (status : Nat) (result : Word) (s : State) : State :=
  if recordAddr s r = 0 then cmdFin r s
  else
    noteWrite true false 0 (recordAddr s r + 15) (sendBy (some (400 + r)) (recordMsg s r status result) none (ringCloses r s))

/-- A RESULT the manual does not state. -/
def cmdFree (r status : Nat) (s : State) : State := cmdDone r status (Config.freeWord s.freeCtr) (tickFree s)

/-- A refused command: STATUS 1 and ILLEGAL_OP (R270). -/
def cmdIllegal (r : Nat) (s : State) : State := cmdFree r 1 (raise 0x14 ringRec 0 s)

/-! ## Fetches -/

/-- The address of the slot of the command at HEAD (R265). -/
def slotAddr (s : State) (r : Nat) : Nat := (rd s (.ringBase r)).toNat + 128 * ((ringAt s r).count % ringN s r)

/-- Whether a ring waits for its first fetch of a command (R266, R277). -/
def fetchable (s : State) (r : Nat) : Bool :=
  let x := ringAt s r
  (x.st == .idle && ringHead s r != x.tail.toNat) || (x.st == .fetching && x.gap && x.tries == 0)

/-- The ring the front end fetches for next: of the highest PRI, in turn after the one fetched last (R266). -/
def fetchNext (s : State) : Option Nat :=
  let pri (r : Nat) : Nat := fld (rd s (.ringCfg r)) 5 4
  let l := ((List.range 16).map fun i => (s.lastFetch + 1 + i) % 16).filter (fetchable s)
  let top := l.foldl (fun m r => max m (pri r)) 0
  l.find? fun r => pri r == top

/-- The answer of a ring's fetch (R268, R277): `addr` is the address it read at port `p`. Any error response raises the port's bus
fault. -/
def fetchDone (r : Nat) (p : PortId) (addr stat : Nat) (ws : List Word) (s : State) : State :=
  let x := ringAt s r
  let e := statErr stat
  if x.st != .fetching || x.gap then s
  else if e ≠ 0 then
    let s := raise (statFault p 2) ringRec (BitVec.ofNat 64 addr) s
    modRing r (fun x => { ringClear x with st := if x.disabling then .off else .stalled, disabling := false }) s
  else if x.disabling then modRing r (fun x => { ringClear x with st := .off, disabling := false }) s
  else
    let w0 := nth ws 0
    if fld w0 63 63 = (x.count / ringN s r + 1) % 2 ∧ fld w0 62 48 = x.count % 32768 then
      let others := (List.range 16).filterMap fun q =>
        if q != r && (ringAt s q).st == .executing then some (q, (ringAt s q).serial) else none
      let chans := (List.range 64).filterMap fun c =>
        let h := chanAt s (.hub (BitVec.ofNat 6 c))
        if hostOwned s (.hub (BitVec.ofNat 6 c)) && h.st != .idle && h.st != .halted then some (100 + c, h.runs) else none
      let s := modRing r (fun x => { ringClear x with
        st := .executing, cmd := (List.range 16).map (nth ws), aon := s.sys.aon, after := others ++ chans
        serial := x.serial + 1 }) s
      if cmdLegal ws then s else cmdIllegal r s
    else
      let k := x.tries + 1
      if k ≥ max 1 (fld (rd s .cmdRetry) 15 0) then
        let s := raise 0xA ringRec (pack [(16, ringHead s r), (0, r)]) s
        modRing r (fun x => { ringClear x with st := .stalled }) s
      else modRing r (fun x => { x with gap := true, tries := k }) s

/-- Issues a fetch of ring `r` (R267). A slot beyond the memory answers ADDR_ERR (R6). -/
def fetchIssue (r : Nat) (s : State) : State :=
  let a := slotAddr s r
  let s := modRing r (fun x => { x with st := .fetching, gap := false }) s
  let o : Owner := .fetch (BitVec.ofNat 4 r)
  if bit (rd s (.ringCfg r)) 1 then
    if a + 128 > dpaEnd then fetchDone r (mpP 0) a 1 [] s
    else
      let n := stackOf (ilv s) a
      send (rdMsg (mpP n) a 128 0) (some o) (wake n s)
  else send (rdMsg .hbp a 128 0 (bit (rd s (.ringCfg r)) 2)) (some o) s

/-- COMMAND_FETCH, R266. -/
def execCommandFetch (r : BitVec 4) (s : State) : Out :=
  inner (fun s => if fetchNext s == some r.toNat then fetchIssue r.toNat { s with lastFetch := r.toNat } else s) s

/-- COMMAND_RETRY, R277: the gap is over. -/
def execCommandRetry (r : BitVec 4) (s : State) : Out :=
  inner (fun s =>
    let x := ringAt s r.toNat
    if x.st == .fetching && x.gap && x.tries != 0 then fetchIssue r.toNat s else s) s

/-- Takes the flight of an owner. -/
def takeFlight (o : Owner) (s : State) : Option (Flight × State) :=
  (takeOut (fun (f : Flight) => f.owner == o) s.inflight).map fun x => (x.1, { s with inflight := x.2 })

/-- COMMAND_FETCH_RESPONSE, R277. -/
def execCommandFetchResponse (r stat : BitVec 4) (ws : List Word) (s : State) : Out :=
  inner (fun s =>
    match takeFlight (.fetch r) s with
    | none => s
    | some (f, s) => fetchDone r.toNat f.port f.addr stat.toNat ws s) s

/-! ## The commands' actions -/

/-- Whether a command of another ring is in progress, one that waits under WAIT not counted. -/
def othersBusy (s : State) (r : Nat) : Bool :=
  (List.range 16).any fun q => q != r && (ringAt s q).st == .executing && ((ringAt s q).begun || !bit (nth (ringAt s q).cmd 0) 34)

/-- NOP. -/
def nopGo (r : Nat) (s : State) : State := cmdDone r 0 0 s

/-- Whether a RUN with HOLD has seen the separator stop. -/
def holdDone (s : State) (r : Nat) : Bool :=
  let x := ringAt s r
  x.st == .executing && !x.closing && cmdOpc x.cmd == 1 && x.started && s.sep.st != .running

/-- RUN (R113, R270). -/
def runGo (r : Nat) (s : State) : State :=
  let x := ringAt s r
  if x.started then (if holdDone s r then cmdDone r 0 (sepStat s) s else s)
  else if s.sep.st != .halted then s
  else
    let s := (List.range 16).foldl (fun s q => if holdDone s q then cmdDone q 0 (sepStat s) s else s) s
    let n := (cmdB x.cmd).toNat
    let s := runStart ((cmdA x.cmd).setWidth 15) ((List.range n).map (cmdInl x.cmd)) s
    if bit (nth x.cmd 0) 33 then modRing r (fun x => { x with started := true }) s else cmdDone r 0 0 s

/-- The system channel that works on ring `r`'s load. -/
def loadChan (s : State) (r : Nat) : Option ChanId := jobOn s (loadOf r)

/-- LOAD (R214, R270). -/
def loadGo (r : Nat) (s : State) : State :=
  let x := ringAt s r
  if !x.begun then assignJobs 8 { modRing r (fun x => { x with begun := true }) s with sysWait := s.sysWait ++ [.load (BitVec.ofNat 4 r)] }
  else if x.ended then cmdDone r (if x.bad then 4 else 0) (BitVec.ofNat 64 x.left) s
  else
    match loadChan s r with
    | some i => if (chanAt s i).st == .queued then s else modRing r (fun x => { x with started := true }) s
    | none => s

/-- Whether a DPA range reaches the cellar (R52, R273). -/
def inCellar (s : State) (a n : Nat) : Bool :=
  let b := (rd s .celBase).toNat
  celSize s != 0 && decide (a < b + celSize s * 2 ^ 25) && decide (b < a + n)

/-- The origin of a ladle's writes (R349). -/
def ladleOrg : Org := { origin := .ladle, rid := 0, size := .full }

/-- The bytes of a ladle's payload. -/
def ladleBytes (w : List Word) : List Byte := (wordsBytes (w.drop 4)).take (ladleLen w)

/-- The offset that ring `r`'s ladle on control space accesses next, whether it has begun or not. -/
def ladleOff (s : State) (r : Nat) : Option Nat :=
  let x := ringAt s r
  let n := ladleLen x.cmd / 8
  if x.st != .executing || x.closing || !(cmdOpc x.cmd == 3 || cmdOpc x.cmd == 4) || ladleSpace x.cmd != 1 || (x.begun && x.left == 0) then none
  else some ((cmdA x.cmd).toNat + 8 * (if x.begun then n - x.left else 0))

/-- Whether an access of CP or HBP to the register at an offset waits in a bridge: it comes before a ladle's (R385). -/
def hostFirst (s : State) (off : Nat) : Bool :=
  s.bridges.any fun c => (cmdOrigin c == some .cp || cmdOrigin c == some .hbp) && (cmdReg c).map Reg.off == some off

/-- The next word of a ladle on control space (R273): one access in a cycle. A write of an offset that is unoccupied answers ADDR_ERR;
a write of instruction memory while the separator runs is refused. -/
def ladleReg (r : Nat) (wr? : Bool) (s : State) : State :=
  let x := ringAt s r
  match ladleOff s r with
  | none => s
  | some a =>
    match (if a < 2 ^ 26 then regAt a else none) with
    | none => modRing r (fun x => { x with left := 0, bad := true }) s
    | some q =>
      if hostFirst s a then s
      else
        match churnReady q s with
        | some s => s
        | none =>
          let i := ladleLen x.cmd / 8 - x.left
          if wr? then
            let refused := (match q with | .imem _ => true | _ => false) && !sepStopped s
            let s := modRing r (fun x => { x with left := if refused then 0 else x.left - 1, ended := refused }) s
            regWrite ladleOrg q (cmdInl x.cmd i) s
          else
            let (v, s) := regRead .full q s
            modRing r (fun x => { x with left := x.left - 1, got := mset [] x.got (8 * i) (wordBytes v) }) s

/-- The requests of a ladle on device memory (R273). -/
def ladleMem (r : Nat) (wr? : Bool) (s : State) : State :=
  let w := (ringAt s r).cmd
  let a := (cmdA w).toNat
  let ps := cuts 512 a (ladleLen w)
  let s := modRing r (fun x => { x with left := ps.length }) s
  ps.foldl (fun s p =>
    if p.1 + p.2 > dpaEnd then
      raise 1 ringRec (BitVec.ofNat 64 p.1) (modRing r (fun x => { x with left := x.left - 1, bad := true }) s)
    else
      let n := stackOf (ilv s) p.1
      let s := wake n s
      if wr? then
        send (wrMsg (mpP n) p.1 (((ladleBytes w).drop (p.1 - a)).take p.2) 0) (some (.ladleWr (BitVec.ofNat 4 r))) s
      else send (rdMsg (mpP n) p.1 p.2 0) (some (.ladleRd (BitVec.ofNat 4 r) (p.1 - a))) s) s

/-- LADLE_WR (R270, R273). -/
def ladleWrGo (r : Nat) (s : State) : State :=
  let x := ringAt s r
  let w := x.cmd
  let fin (s : State) : State :=
    let x := ringAt s r
    if x.st != .executing || x.closing || x.left != 0 then s
    else cmdDone r (if x.bad then 2 else if x.ended then 3 else 0) 0 s
  if x.begun then fin (if ladleSpace w = 1 then ladleReg r true s else s)
  else
    let s := modRing r (fun x => { x with begun := true }) s
    let a := (cmdA w).toNat
    match ladleSpace w with
    | 0 => if inCellar s a (ladleLen w) && !bit (rd s .hbCfg) 1 then cmdDone r 3 0 s else fin (ladleMem r true s)
    | 1 => fin (ladleReg r true (modRing r (fun x => { x with left := ladleLen w / 8 }) s))
    | _ =>
      let k := if sepStopped s then 0 else min (ladleLen w) (262144 - a)
      let new := cspWrite a (ladleBytes w) s
      let s := cspWrite (a + k) ((ladleBytes w).drop k) s
      if k ≠ 0 then
        cmdDone r 3 0 (refuseWrite ladleOrg (Reg.off (.imem (a / 8))) (mget 0 s.imem (a / 8)) (mget 0 new.imem (a / 8)) s)
      else cmdDone r 0 0 s

/-- A write of a LADLE_RD to its destination, in class RLX. DESIGN CHOICE (log 83): No Snoop is 0; the manual gives it for fetches
and records only (R45, R267, R275). -/
def ladleRdMsg (d : Nat) (data : List Byte) (p : Nat × Nat) : Msg := wrpMsg .hbp p.1 ((data.drop (p.1 - d)).take p.2) 0 false

/-- The end of a LADLE_RD: what it read is written to its destination, and the command completes when the last of those writes is
issued (R270), or with its record, which follows them. -/
def ladleRdEnd (r : Nat) (s : State) : State :=
  let x := ringAt s r
  if x.st != .executing || x.closing || x.left != 0 then s
  else if x.bad then cmdDone r 2 0 s
  else
    let d := (cmdInl x.cmd 0).toNat
    let data := x.got.flatMap (·.2)
    let ps := cuts 256 d data.length
    let s := noteWrite true false 0 (d + data.length - 1) s
    let out (p : Nat × Nat) (s : State) : State := sendBy (some (416 + r)) (ladleRdMsg d data p) none s
    let s := ps.dropLast.foldl (fun s p => out p s) s
    match ps.getLast? with
    | none => cmdDone r 0 0 s
    | some p =>
      if recordAddr s r = 0 then sendBy (some (400 + r)) (ladleRdMsg d data p) none (ringCloses r s)
      else cmdDone r 0 0 (out p s)

/-- LADLE_RD (R270, R273). -/
def ladleRdGo (r : Nat) (s : State) : State :=
  let x := ringAt s r
  let w := x.cmd
  if x.begun then ladleRdEnd r (if ladleSpace w = 1 then ladleReg r false s else s)
  else
    let s := modRing r (fun x => { x with begun := true }) s
    match ladleSpace w with
    | 0 => ladleRdEnd r (ladleMem r false s)
    | 1 => ladleRdEnd r (ladleReg r false (modRing r (fun x => { x with left := ladleLen w / 8 }) s))
    | _ => ladleRdEnd r (modRing r (fun x => { x with got := mset [] x.got 0 (cspRead s (cmdA w).toNat (ladleLen w)) }) s)

/-- MOVE (R270, R271). -/
def moveGo (r : Nat) (s : State) : State :=
  let x := ringAt s r
  let w := x.cmd
  let i : ChanId := .hub ((cmdA w).setWidth 6)
  let s := modRing r (fun x => { x with begun := true }) s
  if !x.started then
    if !hostOwned s i then cmdIllegal r s
    else if (chanAt s i).st != .idle then s
    else
      let d : Dsc := { src := cmdInl w 0, dst := cmdInl w 1, len := cmdInl w 2, cfg := cmdInl w 3, sgl := cmdInl w 4, sig := cmdInl w 5 }
      let s := modRing r (fun x => { x with started := true }) s
      chanLaunch i (.move (BitVec.ofNat 4 r)) (modChan i (fun h => { h with sh := d }) s)
  else if x.ended then cmdDone r (if x.bad then 4 else 0) (BitVec.ofNat 64 x.left) s
  else s

/-- SEM (R254, R270). -/
def semGo (r : Nat) (s : State) : State :=
  let w := (ringAt s r).cmd
  let p := fld (cmdA w) 11 0
  let e := bit (cmdA w) 12
  let n := fld (cmdB w) 15 0
  let v := (semSide (pairAt s p) e).toNat
  if semFits s p e n then cmdDone r 0 (BitVec.ofNat 64 (v + n)) (semAdd p e n ringRec s)
  else cmdFree r 5 (semAdd p e n ringRec s)

/-- Whether what a FENCE waits for is over: the commands fetched before it and, for GLOBAL, the host-owned channels (R283). -/
def fenceReady (s : State) (x : Ring) : Bool :=
  x.after.all fun a =>
    if a.1 < 100 then (ringAt s a.1).serial != a.2 || (ringAt s a.1).st != .executing
    else if cmdB x.cmd = 0 then true
    else
      let h := chanAt s (.hub (BitVec.ofNat 6 (a.1 - 100)))
      h.runs != a.2 || h.st == .idle || h.st == .halted

/-- FENCE (R283): RINGS, or GLOBAL with its read-backs. No Snoop of a read-back is 0 (DESIGN CHOICE, log entry 83). -/
def fenceGo (r : Nat) (s : State) : State :=
  let x := ringAt s r
  let s := modRing r (fun x => { x with begun := true }) s
  if x.ended then (if x.left = 0 then cmdDone r (if x.bad then 2 else 0) 0 s else s)
  else if !fenceReady s x then s
  else if cmdB x.cmd = 0 then cmdDone r 0 0 s
  else
    let l := s.readback.filter (·.ring)
    let s := { s with readback := s.readback.filter fun b => !b.ring }
    let s := modRing r (fun x => { x with ended := true, left := l.length }) s
    let s := l.foldl (fun s b =>
      send (rdMsg (if b.pp then .pp else .hbp) b.addr 1 2 false b.chip) (some (.ringBar (BitVec.ofNat 4 r) b.pp)) s) s
    if l.isEmpty then cmdDone r 0 0 s else s

/-- Ring `r`'s command goes on as far as it can. -/
def cmdGo (r : Nat) (s : State) : State :=
  let x := ringAt s r
  if x.st != .executing || x.closing then s
  else if !x.begun && !x.started && bit (nth x.cmd 0) 34 && othersBusy s r then s
  else
    match cmdOpc x.cmd with
    | 0 => nopGo r s
    | 1 => runGo r (modRing r (fun x => { x with begun := true }) s)
    | 2 => loadGo r s
    | 3 => ladleWrGo r s
    | 4 => ladleRdGo r s
    | 5 => moveGo r s
    | 6 => semGo r s
    | 7 => fenceGo r s
    | _ => s

/-- The row of a ring command: it acts on a ring whose command in progress has that opcode. -/
def cmdRow (op : Nat) (r : BitVec 4) (s : State) : Out :=
  inner (fun s => if cmdOpc (ringAt s r.toNat).cmd = op then cmdGo r.toNat s else s) s

/-- CMD_NOP, R270. -/
def execCmdNop (r : BitVec 4) (s : State) : Out := cmdRow 0 r s
/-- RUN, R113. -/
def execRun (r : BitVec 4) (s : State) : Out := cmdRow 1 r s
/-- LOAD, R270. -/
def execLoad (r : BitVec 4) (s : State) : Out := cmdRow 2 r s
/-- LADLE_WR, R273. -/
def execLadleWr (r : BitVec 4) (s : State) : Out := cmdRow 3 r s
/-- LADLE_RD, R273. -/
def execLadleRd (r : BitVec 4) (s : State) : Out := cmdRow 4 r s
/-- MOVE, R271. -/
def execMove (r : BitVec 4) (s : State) : Out := cmdRow 5 r s
/-- SEM, R270. -/
def execSem (r : BitVec 4) (s : State) : Out := cmdRow 6 r s
/-- FENCE_COMMAND, R283. -/
def execFenceCommand (r : BitVec 4) (s : State) : Out := cmdRow 7 r s

/-- RUN_HOLD_COMPLETE, R270. -/
def execRunHoldComplete (r : BitVec 4) (s : State) : Out :=
  inner (fun s => if holdDone s r.toNat then cmdDone r.toNat 0 (sepStat s) s else s) s

/-- Whether a write of ring `r`'s LADLE_RD to its destination is not issued yet (R270). -/
def ladleOut (s : State) (r : Nat) : Bool :=
  s.txq.any fun x => x.src == some (416 + r) || (x.src == some (400 + r) && recordAddr s r == 0)

/-- Whether ring `r`'s command has not started in the sense of R272. -/
def unstarted (s : State) (r : Nat) : Bool :=
  let x := ringAt s r
  x.st == .executing &&
    (match cmdOpc x.cmd with
     | 1 => !x.closing && !x.started
     | 2 => !x.closing && !x.started && !x.ended && (match loadChan s r with | some i => (chanAt s i).st == .queued | none => true)
     | 5 => !x.closing && (!x.started || ((chanAt s (.hub ((cmdA x.cmd).setWidth 6))).st == .queued && !x.ended))
     | 3 | 7 => !x.closing
     | 4 => !x.closing || ladleOut s r
     | _ => false)

/-- CMD_TIMEOUT, R272: raised once, and the command keeps waiting. -/
def execCmdTimeout (r : BitVec 4) (s : State) : Out :=
  inner (fun s =>
    if unstarted s r.toNat && !(ringAt s r.toNat).timedOut && rd s .cmdTmo != 0 then
      let x := ringAt s r.toNat
      modRing r.toNat (fun x => { x with timedOut := true })
        (raise 0xB ringRec (pack [(16, fld (nth x.cmd 0) 62 48), (0, r.toNat)]) s)
    else s) s

/-- P2P_PROBE_RESPONSE, R284. -/
def execP2pProbeResponse (k : BitVec 3) (stat : BitVec 4) (s : State) : Out :=
  inner (fun s =>
    match takeFlight (.probe k) s with
    | none => s
    | some (_, s) => probeDone k.toNat stat.toNat s) s

/-! ## Answers of a ring's requests -/

/-- The answer of a ladle's or a fence's request of ring `r` (R273, R283): an error response to a ladle raises the port's bus fault, a
failed read-back the fault R32 gives its STAT. -/
def ringAnswer (r : Nat) (f : Flight) (stat : Nat) (data : List Byte) (s : State) : State :=
  let e := statErr stat
  let code := statFault f.port (match f.owner with | .ringBar .. => e | _ => 2)
  let s := if e = 0 then s else raise code ringRec (BitVec.ofNat 64 (rspInfo f code stat data f.addr)) s
  let s := modRing r (fun x => { x with
    left := x.left - 1, bad := x.bad || e != 0
    got := match f.owner with | .ladleRd _ o => if e = 0 then mset [] x.got o data else x.got | _ => x.got }) s
  cmdGo r s

end Sys2Proof.Machine
end

