-- ==== Sys2Proof/Machine/Targets.lean ====
section
/-! DEFINITION. Requests of partners on CP_TREQ, HBP_TREQ and PP_TREQ: control space (R383), the memory window (R279 to R282), peer
data and sealed peer units (R338 to R340), and the classes in which they are performed (R42, R43, R281). -/

namespace Sys2Proof.Machine

/-! ## Headers, answers and order -/

/-- Header bits [127:64] of a request (R28, R375). -/
def hdrHi (r : Req) : Nat :=
  r.opc.toNat * 2 ^ 56 + r.tag.toNat * 2 ^ 40 + r.oc.toNat * 2 ^ 38 + r.chip.toNat * 2 ^ 15 + r.len.toNat

/-- The length of a request in bytes. -/
def reqLen (r : Req) : Nat := r.len.toNat + 1

/-- Drives a response, if the link is up; it takes no credit (R38). An error response to a read carries no data (R33). A WR on HBP_TREQ,
where R28 lists none, is malformed and non-posted; its answer with STAT FORMAT goes out on HBP_TRSP with opcode 0x81, which R28 does not
list there either (DEDUCED, log entry 68). -/
def answer (p : PortId) (rd : Bool) (tag : BitVec 16) (stat : Nat) (data : List Byte) (s : State) : State :=
  if linkOk s p then
    { s with sent := s.sent ++
      [{ port := p, opc := if rd then 0x80 else 0x81, tag := tag, stat := BitVec.ofNat 4 stat, len := data.length - 1, data := data }] }
  else s

/-- Refuses a request: a non-posted one is answered, a posted one dropped with TAG_FAULT (R33). -/
def refuseReq (p : PortId) (r : Req) (stat : Nat) (s : State) : State :=
  if nonPosted r.opc then answer p (r.opc == 1) r.tag stat [] s else tagFault p (hdrHi r) s

/-- Whether a request is malformed: its opcode is not one of the channel's, its class is reserved, its byte enables are wrong, its
data has another length than LEN says, or it crosses 4 KiB (R28, R31, R42). -/
def malformed (ops : List Nat) (r : Req) : Bool :=
  !ops.contains r.opc.toNat || r.oc == 3 || !r.beOk || decide (r.addr.toNat % 4096 + reqLen r > 4096)
  || ((r.opc == 2 || r.opc == 3) && r.data.length != reqLen r)

/-- A request that reaches a target port: dropped in reset and with the link down (R48, R365), held while fclk is stopped (R360), and
dropped with TAG_FAULT without credit (R40). One that came while fclk was stopped is held to the credits when fclk resumes. -/
def targetGate (p : PortId) (c : Instr) (r : Req) (f : State → State) (s : State) : Out :=
  hostGate c (fun s =>
    if !linkOk s p then .next s
    else done (if hasRx s p (((cmdPort c).map (·.2)).getD 0) then f s else tagFault p (hdrHi r) s)) s

/-- A request that reaches FPn_INB: its arrival wakes churn `n`, and it waits in the bridge until the churn is ACTIVE (R26, R356). -/
def fabricGate (n : BitVec 5) (c : Instr) (r : Req) (f : State → State) (s : State) : Out :=
  targetGate (.fp n) c r (fun s => if (churnAt s n.toNat).pwr == .active then f s else hold c (wake n.toNat s)) s

/-! ## Control space -/

/-- The size of a control-space access, if R7 accepts it. -/
def accessSize (a n : Nat) : Option WSize :=
  if n = 8 ∧ a % 8 = 0 then some .full
  else if n = 4 ∧ a % 8 = 0 then some .low
  else if n = 4 ∧ a % 8 = 4 then some .high else none

/-- The bytes a read of a register returns. -/
def readBytes (z : WSize) (v : Word) : List Byte :=
  match z with
  | .full => wordBytes v
  | .low => (wordBytes v).take 4
  | .high => (wordBytes v).drop 4

/-- The word a write carries, in the half it addresses. -/
def writeWord (z : WSize) (data : List Byte) : Word :=
  BitVec.ofNat 64 (match z with | .high => ofBytes data * 2 ^ 32 | _ => ofBytes data)

/-- An access to control space (R7, R383): `c` is the request, which waits for a churn that sleeps. A posted write that R7 refuses
has no effect. -/
def spaceAccess (p : PortId) (o : Origin) (c : Instr) (r : Req) (s : State) : State :=
  let a := r.addr.toNat % 2 ^ 62
  let rd := r.opc == 1
  match (if a < 2 ^ 26 then regAt (a / 8 * 8) else none) with
  | none => refuseReq p r 1 s
  | some q =>
    match accessSize a (reqLen r) with
    | none => if nonPosted r.opc then answer p rd r.tag 5 [] s else s
    | some z =>
      match churnReady q s with
      | some s => hold c s
      | none =>
        let org : Org := { origin := o, rid := r.rid, size := z }
        if rd then
          let (v, s) := regRead z q s
          answer p true r.tag 0 (readBytes z v) s
        else
          let s := regWrite org q (writeWord z r.data) s
          if nonPosted r.opc then answer p false r.tag 0 [] s else s

/-- A request on CP_TREQ, performed as SEQ (R43). -/
def cpIn (c : Instr) (r : Req) (s : State) : State :=
  if ordered s .cp 0 2 then hold c s
  else if r.addr.toNat ≥ 2 ^ 26 then refuseReq .cp r 1 s
  else if malformed [1, 2] { r with oc := 2 } ∧ (regAt (r.addr.toNat / 8 * 8)).isSome then refuseReq .cp r 5 s
  else spaceAccess .cp .cp c r s

/-- Whether a request is a write of SYS_CTL with LEAVE = 1 that comes while the ports are open and the block is not READY (R366, R368):
`ops` are the opcodes of its channel. -/
def leaveReq (p : PortId) (ops : List Nat) (o : Org) (r : Req) (s : State) : Bool :=
  s.sys.phase == 7 && linkOk s p && fclkOn s && r.opc != 1 && !malformed ops r && r.addr.toNat / 8 * 8 == Reg.off .sysCtl
  && (match accessSize r.addr.toNat (reqLen r) with
      | some z => leaveEarly { o with size := z } (writeWord z r.data) s
      | none => false)

/-- A request on a port of control space before READY: a write that sets LEAVE is refused (R368), and any other is not taken (log
entry 5). -/
def earlyReq (p : PortId) (o : Origin) (ops : List Nat) (c : Instr) (r : Req) (f : State → Out) (s : State) : Out :=
  if leaveReq p ops { origin := o, rid := r.rid, size := .full } r s then done (spaceAccess p o c r s) else f s

/-- CP_REQUEST, R383. -/
def execCpRequest (r : Req) (s : State) : Out :=
  earlyReq .cp .cp [1, 2] (.cpRequest r) r (targetGate .cp (.cpRequest r) r (cpIn (.cpRequest r) r)) s

/-! ## Device memory for partners -/

/-- Performs a partner's request at the memory ports: in parts within 512 B, each on the stack that holds it (R31, R280). -/
def winStart (w : WinReq) (a n : Nat) (data : List Byte) (s : State) : State :=
  let ps := cuts 512 a n
  let s := { s with nextId := s.nextId + 1, wins := s.wins ++ [{ w with id := s.nextId, addr := a, left := ps.length }] }
  let id := s.nextId - 1
  ps.foldl (fun s x =>
    let k := stackOf (ilv s) x.1
    let o : Owner := .window id (x.1 - a)
    let m := if w.rd then rdMsg (mpP k) x.1 x.2 0 else wrMsg (mpP k) x.1 ((data.drop (x.1 - a)).take x.2) 0
    send m (some o) (wake k s)) s

/-- Whether a request's range lies in device memory (R6). -/
def inMemory (a n : Nat) : Bool := decide (a + n ≤ dpaEnd)

/-- A request to device memory that is clear (R279, R334). -/
def memRequest (p : PortId) (chip : BitVec 17) (a : Nat) (r : Req) (s : State) : State :=
  if !inMemory a (reqLen r) then refuseReq p r 1 s
  else winStart { id := 0, port := p, chip := chip, oc := r.oc, tag := r.tag, rd := r.opc == 1, posted := !nonPosted r.opc } a (reqLen r) r.data s

/-- A request on HBP_TREQ (R279 to R282, R383). -/
def hbpIn (c : Instr) (r : Req) (s : State) : State :=
  let off := r.addr.toNat % 2 ^ 62
  let win := r.addr.toNat / 2 ^ 62
  if ordered s .hbp 0 r.oc then hold c s
  else if bit (rd s .hbCfg) 2 && r.rid != (rd s .hbRid).setWidth 16 then refuseReq .hbp r 1 (raise 0x14 (portRec .hbp) 0 s)
  else if win = 0 then
    if malformed [1, 3] r ∧ off < 2 ^ 26 ∧ (regAt (off / 8 * 8)).isSome then refuseReq .hbp r 5 s
    else spaceAccess .hbp .hbp c r s
  else if malformed [1, 3] r then refuseReq .hbp r 5 s
  else if win = 1 then
    let full := bit (rd s .hbCfg) 0
    if off + reqLen r > (if full then 2 ^ 42 else 2 ^ 26) then refuseReq .hbp r 1 s
    else
      let a := if full then off else (rd s .winBase).toNat + off
      if r.opc == 3 && inCellar s a (reqLen r) && !bit (rd s .hbCfg) 1 then refuseReq .hbp r 1 (raise 0x14 (portRec .hbp) 0 s)
      else memRequest .hbp 0 a r s
  else refuseReq .hbp r 1 s

/-- HBP_TARGET_REQUEST, R281. -/
def execHbpTargetRequest (r : Req) (s : State) : Out :=
  earlyReq .hbp .hbp [1, 3] (.hbpTargetRequest r) r (targetGate .hbp (.hbpTargetRequest r) r (hbpIn (.hbpTargetRequest r) r)) s

/-! ## Peer chips -/

/-- A SIG on PP_TREQ or FPn_INB (R254). -/
def sigIn (p : PortId) (c : Instr) (r : Req) (s : State) : State :=
  let a := r.addr
  let bad := r.opc != 4 || r.oc == 3 || !r.beOk || r.data.length != 8 || r.len != 7 || !allZero (r.data.drop 2)
  let n := ofBytes (r.data.take 2)
  match p with
  | .fp _ =>
    let x := ctxAt s (fld a 45 32)
    if ordered s p 0 r.oc then hold c s
    else if bad || fld a 63 46 != 0 || fld a 31 1 != 0 || x.st != .opened then tagFault p (hdrHi r) s
    else semAdd x.sem (bit a 0) n (portRec p) s
  | _ =>
    if ordered s p r.chip r.oc then hold c s
    else if bad || fld a 63 48 != 0 || fld a 47 44 != 15 || fld a 43 13 != 0 then tagFault p (hdrHi r) s
    else semAdd (fld a 12 1) (bit a 0) n (portRec p) s

/-- Whether an address lies in the seal window (R338). -/
def isSealWin (a : Word) : Bool := fld a 63 48 == 0 && fld a 47 44 == 0xE && fld a 43 39 == 0

/-- A cipher failure on PP_TREQ (R340). -/
def ppCrypt (kind code slot addr : Nat) (info : Option Nat) (s : State) : State :=
  let s := cryptNote kind slot addr s
  raise code cryptRec (match info with | some x => BitVec.ofNat 64 x | none => if code = 0x12 then s.cryptErr else BitVec.ofNat 64 addr) s

/-- Notes that a unit from a chip failed, for its next read-back (R339). -/
def failChip (chip : BitVec 17) (s : State) : State :=
  if s.peerFail.contains chip then s else { s with peerFail := s.peerFail ++ [chip] }

/-- Answers the writes of a received unit. -/
def answerUnit (wrs : List (BitVec 16)) (stat : Nat) (s : State) : State := wrs.foldl (fun s t => answer .pp false t stat [] s) s

/-- Gives back the data credits of a received unit. -/
def freeUnit (u : HeldUnit) (s : State) : State :=
  let p := portAt s .pp
  setPort { s with units := s.units.filter fun x => x != u } .pp { p with owed := p.owed - 8 * u.data.length }

/-- The classes of the writes of a source chip's units that came before a unit (R42). -/
def unitsBefore (s : State) (chip : BitVec 17) (unit : BitVec 36) : List (BitVec 2) :=
  ((s.units.takeWhile fun u => !(u.chip == chip && u.unit == unit)).filter fun u => u.chip == chip).flatMap (·.ocs)

/-- Whether a data write of a unit waits in the bridge. -/
def unitWaits (s : State) (chip : BitVec 17) (unit : BitVec 36) : Bool :=
  s.bridges.any fun c =>
    match c with
    | .ppTargetRequest r => r.chip == chip && (r.opc == 2 || r.opc == 3) && !isSealWin r.addr && r.addr.toNat / 4096 == unit.toNat
    | _ => false

/-- Whether a unit may not be resolved yet: a data write of it waits, or an earlier request from its source chip that the class of one
of its writes, or of its record, puts first is not performed (R42, R338). -/
def recordWaits (s : State) (r : Req) : Bool :=
  let unit := r.addr.setWidth 36
  let ocs := r.oc :: (match s.units.find? fun u => u.chip == r.chip && u.unit == unit with | some u => u.ocs | none => [])
  unitWaits s r.chip unit
    || (windowOc s .pp r.chip ++ unitsBefore s r.chip unit).any fun e => ocs.any fun oc => mustWait oc e

/-- A seal record (R338, R340): the unit is opened and written, or discarded. -/
def sealRecordIn (r : Req) (s : State) : State :=
  let unit := r.addr.setWidth 36
  let slot := fld r.addr 38 36
  let a := unit.toNat * 4096
  match s.units.find? fun u => u.chip == r.chip && u.unit == unit && u.data.length == 8 with
  | none => ppCrypt 5 3 slot a none s
  | some u =>
    let s := freeUnit u s
    let fail (kind code : Nat) (s : State) : State := answerUnit u.wrs 2 (failChip r.chip (ppCrypt kind code slot a none s))
    if !(keyAt s slot).valid then fail 1 0x12 s
    else
      match gcmOpen (keyBytes (keyAt s slot)) ((r.data.drop 8).take 12) (aadOf a slot true (chipId s).toNat) (u.data.flatMap (·.2))
          ((r.data.drop 24).take 16) with
      | none => fail 3 3 s
      | some pt => winStart { id := 0, port := .pp, chip := r.chip, oc := r.oc, posted := true, fin := .unit u.wrs } a 4096 pt s

/-- Sealed copies kept or being made (R339). -/
def copiesHeld (s : State) : Nat :=
  (s.copies.filter fun c => !c.expired).length + (s.wins.filter fun w => match w.fin with | .seal _ => true | _ => false).length

/-- A read of the seal window (R339): the unit is read from memory, once there is room for its copy. -/
def sealWinRd (c : Instr) (r : Req) (s : State) : State :=
  let unit := r.addr.setWidth 36
  let slot := fld r.addr 38 36
  let a := unit.toNat * 4096
  if !inMemory a 4096 then refuseReq .pp r 1 s
  else if copiesHeld s ≥ 32 then hold c s
  else if !(keyAt s slot).valid then answer .pp true r.tag 2 [] (ppCrypt 1 0x12 slot a none s)
  else
    let s := { s with copies := s.copies.filter fun x => !(x.chip == r.chip && x.unit == unit) }
    winStart { id := 0, port := .pp, chip := r.chip, oc := r.oc, tag := r.tag, rd := true, fin := .seal (BitVec.ofNat 3 slot) } a 4096 [] s

/-- A read of a sealed copy (R339): one that expired answers TGT_ERR with KIND 5. -/
def copyRd (x : SealCopy) (r : Req) (s : State) : State :=
  let mine (y : SealCopy) : Bool := y.chip == x.chip && y.unit == x.unit
  let s := { s with copies :=
    if x.served + 1 ≥ 8 then s.copies.filter fun y => !mine y else lmod mine (fun y => { y with served := y.served + 1 }) s.copies }
  let a := x.unit.toNat * 4096
  if x.expired then answer .pp true r.tag 2 [] (ppCrypt 5 3 x.slot.toNat a none s)
  else answer .pp true r.tag 0 ((x.data.drop (r.addr.toNat - a)).take 512) s

/-- A data write of a unit: held for its seal record (R338). The first write of a unit waits while the buffer has no room, and behind
the requests in the bridge that its class puts first (R42); a unit that has begun takes its writes as they come, since they are
performed when it is resolved (log entry 58). -/
def unitData (c : Instr) (r : Req) (s : State) : State :=
  let a := r.addr.toNat
  let unit := BitVec.ofNat 36 (a / 4096)
  let mine (u : HeldUnit) : Bool := u.chip == r.chip && u.unit == unit
  let tags := if r.opc == 2 then [r.tag] else []
  let owe (k : Nat) (s : State) : State := let p := portAt s .pp; setPort s .pp { p with owed := p.owed + k }
  match s.units.find? mine with
  | some u =>
    let k := if (mget [] u.data (a % 4096)).isEmpty then 8 else 0
    owe k { s with units := lmod mine (fun u =>
      { u with data := mset [] u.data (a % 4096) r.data, wrs := u.wrs ++ tags, ocs := u.ocs ++ [r.oc] }) s.units }
  | none =>
    if s.units.length ≥ 32 || (waitingOc s .pp r.chip).any (mustWait r.oc) then hold c s
    else owe 8 { s with units := s.units ++
      [{ chip := r.chip, unit := unit, data := mset [] [] (a % 4096) r.data, wrs := tags, ocs := [r.oc] }] }

/-- Whether a request is a read-back: a 1 B RD in class SEQ (R227, R283, R339). -/
def readBack (r : Req) : Bool := r.opc == 1 && reqLen r == 1 && r.oc == 2

/-- Whether a request carries data of a unit or a seal record: under ALL_OFF_PACKAGE it is performed when its unit is resolved, and
so takes its place in the order there (R338). -/
def ofUnit (s : State) (r : Req) : Bool :=
  cryptMode s == 2 && ((r.opc == 3 && isSealWin r.addr)
    || ((r.opc == 2 || r.opc == 3) && !isSealWin r.addr && reqLen r == 512 && r.addr.toNat % 512 == 0 && inMemory r.addr.toNat 512))

/-- A request on PP_TREQ under ALL_OFF_PACKAGE (R338, R339). -/
def ppSealed (c : Instr) (r : Req) (s : State) : State :=
  let a := r.addr.toNat
  let rd := r.opc == 1
  if readBack r && (isSealWin r.addr || inMemory a 1) then
    if s.peerFail.contains r.chip then
      answer .pp true r.tag 2 [] { s with peerFail := s.peerFail.filter fun x => x != r.chip }
    else answer .pp true r.tag 0 [0] s
  else if isSealWin r.addr then
    if reqLen r != 64 then refuseReq .pp r 5 s
    else if rd then sealWinRd c r s
    else if r.opc == 3 then (if recordWaits s r then hold c s else sealRecordIn r s)
    else refuseReq .pp r 5 s
  else if !inMemory a (reqLen r) then refuseReq .pp r 1 s
  else
    let whole := reqLen r == 512 && a % 512 == 0
    let unsealed (s : State) : State :=
      let s := ppCrypt 4 0x13 0 a (some (hdrHi r)) s
      if nonPosted r.opc then answer .pp rd r.tag 2 [] s else s
    if rd then
      match s.copies.find? fun x => x.chip == r.chip && x.unit.toNat == a / 4096 with
      | some x => if whole then copyRd x r s else unsealed s
      | none => unsealed s
    else if whole then unitData c r s else unsealed s

/-- A request on PP_TREQ (R254, R334, R339). An address of the seal window holds a unit number and no address of memory (R338), so
that R31's boundary does not concern it. -/
def ppIn (c : Instr) (r : Req) (s : State) : State :=
  if r.opc == 4 then sigIn .pp c r s
  else
    let win := cryptMode s == 2 && isSealWin r.addr
    if !ofUnit s r && ordered s .pp r.chip r.oc then hold c s
    else if malformed [1, 2, 3] (if win then { r with addr := 0 } else r) then refuseReq .pp r 5 s
    else if cryptMode s == 2 then ppSealed c r s
    else memRequest .pp r.chip r.addr.toNat r s

/-- PP_TARGET_REQUEST, R339. -/
def execPpTargetRequest (r : Req) (s : State) : Out :=
  targetGate .pp (.ppTargetRequest r) r (ppIn (.ppTargetRequest r) r) s
/-- SEAL_RECORD, R338. -/
def execSealRecord (r : Req) (s : State) : Out := targetGate .pp (.sealRecord r) r (ppIn (.sealRecord r) r) s
/-- SEAL_WINDOW_RD, R339. -/
def execSealWindowRd (r : Req) (s : State) : Out := targetGate .pp (.sealWindowRd r) r (ppIn (.sealWindowRd r) r) s

/-- SEALED_COPY_EXPIRE, R339. -/
def execSealedCopyExpire (chip : BitVec 17) (unit : BitVec 36) (s : State) : Out :=
  inner (fun s =>
    { s with copies := lmod (fun x => x.chip == chip && x.unit == unit) (fun x => { x with expired := true, data := [] }) s.copies }) s

/-- SIG, R254. -/
def execSig (p : PortId) (r : Req) (s : State) : Out :=
  match p with
  | .fp n => fabricGate n (.sig (.fp n) r) r (sigIn (.fp n) (.sig (.fp n) r) r) s
  | .pp => targetGate .pp (.sig .pp r) r (ppIn (.sig .pp r) r) s
  | _ => .next s

/-! ## Ends -/

/-- The end of a partner's request at the memory ports: its answer, the sealing of the unit it read, or the answers to the writes
of the unit it wrote. -/
def winEnd (w : WinReq) (s : State) : State :=
  let data := w.got.flatMap (·.2)
  match w.fin with
  | .plain => if w.posted then s else answer w.port w.rd w.tag w.stat.toNat (if w.stat = 0 then data else []) s
  | .unit wrs => answerUnit wrs w.stat.toNat s
  | .seal slot =>
    let k := slot.toNat
    if w.stat ≠ 0 then answer .pp true w.tag w.stat.toNat [] s
    else if !(keyAt s k).valid then answer .pp true w.tag 2 [] (ppCrypt 1 0x12 k w.addr none s)
    else if nonceEnd s then answer .pp true w.tag 2 [] (ppCrypt 6 0x12 k w.addr none s)
    else
      let (iv, ct, tag, s) := sealUnit k (aadOf w.addr k true w.chip.toNat) data s
      let s := { s with copies := s.copies ++
        [{ chip := w.chip, unit := BitVec.ofNat 36 (w.addr / 4096), data := ct, served := 0, slot := slot }] }
      answer .pp true w.tag 0 (sealRec k w.addr iv tag) s

/-- The answer of one of its requests (R273, R280). -/
def winAnswer (id off : Nat) (f : Flight) (stat : Nat) (data : List Byte) (s : State) : State :=
  let e := statErr stat
  match s.wins.find? fun w => w.id == id with
  | none => s
  | some w =>
    let s := if e = 0 then s else raise (statFault f.port e) (portRec w.port) (BitVec.ofNat 64 (rspInfo f (statFault f.port e) stat data f.addr)) s
    let w' : WinReq := { w with
      left := w.left - 1
      stat := if w.stat ≠ 0 ∨ e = 0 then w.stat else if e = 3 then 3 else 2
      got := if w.rd && e = 0 then mset [] w.got off data else w.got }
    if w'.left = 0 then winEnd w' { s with wins := s.wins.filter fun x => x.id != id }
    else { s with wins := lmod (fun x => x.id == id) (fun _ => w') s.wins }

end Sys2Proof.Machine
end

