-- ==== Sys2Proof/Machine/Respond.lean ====
section
/-! DEFINITION. What reaches the block from its ports' partners beside requests to its memory and registers: inbound stream
writes (R245, R246), responses, time-outs and credits (R34 to R40, R46), and links that rise and fall (R47 to R49). -/

namespace Sys2Proof.Machine

/-! ## Inbound writes -/

/-- The bytes an op has taken from context `i`: NXT (R246). -/
def nxt (o : RunOp) (i : Nat) : Nat := if o.op.desc.ctx = i then o.acc else o.acc2

/-- Churn `n`'s share of the stream that op `o` takes from context `i`: of the stripe of its entry, or of the context where it names no
entry (R243, R245). -/
def opShare (s : State) (n i : Nat) (o : ChurnOp) : Nat :=
  let x := ctxAt s i
  inShareBytes (opSeq s o) n x.etype x.rank x.elems

/-- The op that the next bytes of context `i` in churn `n` are for: the first one issued whose part there still lacks some. -/
def inFlightOp (s : State) (n i : Nat) : Option ChurnOp :=
  (s.tasks.find? fun t => t.left.getLsbD n && (opIns t.op).contains i
    && decide ((match runAt s n t.id with | some o => nxt o i | none => 0) < opShare s n i t.op)).map (·.op)

/-- Churn `n`'s share of the stream on context `i`: that of the op the next bytes are for, and of the context's own stripe while none is
in flight (R245, R246). -/
def ctxShare (s : State) (n i : Nat) : Nat :=
  match inFlightOp s n i with
  | some o => opShare s n i o
  | none => let x := ctxAt s i; inShareBytes (dealSeq s x.chmask x.swt) n x.etype x.rank x.elems

/-- The started op of churn `n` that takes data from context `i` and still lacks some. -/
def takerOp (s : State) (n i : Nat) : Option RunOp :=
  (churnAt s n).run.find? fun o => o.started && (opIns o.op).contains i && decide (nxt o i < opShare s n i o.op)

/-- The op has no room for more bytes in its 512 KiB of the stage buffer (R261). -/
def opFull (o : RunOp) : Bool := decide (opCap o.op ≤ o.sto.length + o.inbuf.length)

/-- An op takes the bytes of an accepted write. -/
def opTake (n i : Nat) (o : RunOp) (data : List Byte) (s : State) : State :=
  modRun n o.op.id (fun r =>
    if o.op.desc.ctx = i then { r with acc := r.acc + data.length, inbuf := r.inbuf ++ data }
    else { r with acc2 := r.acc2 + data.length, inbuf2 := r.inbuf2 ++ data }) s

/-- An accepted write (R77, R78, R129, R246): a stalled churn keeps the data credits of blocks bound to the cellar, but not those of
blocks it discards. -/
def inAccept (n i : Nat) (o : RunOp) (data : List Byte) (s : State) : State :=
  let s := opTake n i o data s
  let s := if o.op.kind = .sin then plan (fun p => { p with rawIn := satAdd p.rawIn data.length }) s else s
  let s :=
    if o.op.kind = .sin && s.ladder.stalled.getLsbD n && (entAt s o.op.desc.entry).st == .filling && !o.refused then
      let p := portAt s (fpP n)
      let k := cdiv data.length 64
      modRun n o.op.id (fun r => { r with kept := r.kept + k }) (setPort s (fpP n) { p with owed := p.owed + k })
    else s
  churnGo n s

/-- An inbound write refused under R246: PAGE_FAULT, and STRM_FLT with KIND 4. -/
def inRefuse (n i : Nat) (a : Word) (s : State) : State :=
  raise 4 (portRec (fpP n)) a { s with strmFlt := strmWord i n 4 (fld a 31 0 / 64) }

/-- Whether an earlier write of context `i` waits in churn `n`'s bridge. -/
def waitsBefore (s : State) (n i : Nat) : Bool :=
  s.bridges.any fun c => match c with | .inboundWrite m r => m.toNat == n && fld r.addr 45 32 == i | _ => false

/-- A write on FPn_INB (R31, R42, R245, R246). -/
def inboundIn (n : BitVec 5) (r : Req) (s : State) : State :=
  let i := fld r.addr 45 32
  let off := fld r.addr 31 0
  let x := ctxAt s i
  let wait (s : State) : State := hold (.inboundWrite n r) s
  if malformed [3] r || fld r.addr 63 46 != 0 then tagFault (.fp n) (hdrHi r) s
  else if ordered s (.fp n) 0 r.oc then wait s
  else if x.st != .opened || x.kind != 0 || decide (off + reqLen r > ctxShare s n.toNat i) then inRefuse n.toNat i r.addr s
  else if waitsBefore s n.toNat i then wait s
  else
    match takerOp s n.toNat i with
    | none => wait s
    | some o =>
      if off ≠ nxt o i then tagFault (.fp n) (hdrHi r) s
      else if opFull o then wait s
      else inAccept n.toNat i o r.data s

/-- INBOUND_WRITE, R246. -/
def execInboundWrite (n : BitVec 5) (r : Req) (s : State) : Out := fabricGate n (.inboundWrite n r) r (inboundIn n r) s

/-! ## Responses -/

/-- The data of an OK response, of the length asked for; bytes it lacks are free (log entry 19). -/
def fitData (k : Nat) (data : List Byte) (s : State) : List Byte × State :=
  if data.length ≥ k then (data.take k, s)
  else
    let m := k - data.length
    (data ++ (List.range m).map fun i => Config.freeByte (s.freeCtr + i), { s with freeCtr := s.freeCtr + m })

/-- A failed request of op `id` in churn `n`: fault `c` with its FLT_INFO, and ASTAT bit 0, also once the op has left (R391). DESIGN
CHOICE (log entry 93): the record then names no op. -/
def opLostBy (c n id info : Nat) (s : State) : State :=
  match runAt s n id with
  | some o => opFault c n o.op (BitVec.ofNat 64 info) s
  | none => churnFault c (recWord none 0xFF n 2) (BitVec.ofNat 64 info) s

/-- A failed block read, map read or write of op `id` in churn `n`: MEM_BUS_ERR (R146, R296, R391). -/
def opLost (n id addr : Nat) (s : State) : State := opLostBy 1 n id addr s

/-- Part of a block of a unit arrives, or its read failed (R146). -/
def partIn (n id u blk off : Nat) (f : Flight) (stat : Nat) (data : List Byte) (s : State) : State :=
  let put (p : Part) : Part :=
    if p.blk = blk ∧ p.off = off then (if stat = 0 then { p with data := some data } else { p with bad := true }) else p
  let s := modUnit n id u (fun x => { x with parts := x.parts.map put }) s
  if stat = 0 then s else opLost n id f.addr s

/-- The lines of a map read arrive, or the read failed: then every block that needs them is delivered as zeros (R146). -/
def mapIn (n id g e stat : Nat) (data : List Byte) (s : State) : State :=
  if stat = 0 then mapFilled n g e data s else modRun n id (fun o => { o with badLines := o.badLines ++ [g] }) s

/-- The data write of a block failed (R391): a stream-in block's map entry gets CODE 3, a re-encode ends (R79). -/
def storeLost (n id e blk : Nat) (m : Word) (addr : Nat) (s : State) : State :=
  match runAt s n id with
  | none => churnFault 1 (recWord (some e) 0xFF n 2) (BitVec.ofNat 64 addr) s
  | some o =>
    let s := opFault 1 n o.op (BitVec.ofNat 64 addr) s
    if o.op.kind = .reenc then modRun n id (fun o => { o with fault := true }) s
    else if (entAt s e).st == .filling then
      mapStore n e blk (setFld m 63 62 3) (modRun n id (fun o => { o with flushed := false }) s)
    else s

/-- A run of a plane arrives; the bytes of a failed read are free (log entry 19), and its fault is the one R32 gives its STAT. -/
def planeIn (n id frame e0 plane : Nat) (f : Flight) (stat : Nat) (data : List Byte) (s : State) : State :=
  let (d, s) := fitData f.len (if stat = 0 then data else []) s
  let s := modSeg n id frame e0 (fun g => { g with got := g.got ++ [(plane % 8, plane / 8, d)] }) s
  let code := statFault f.port stat
  if stat = 0 then s else opLostBy code n id (rspInfo f code stat data f.addr) s

/-- A write of an update op failed (R296, R314). -/
def updLost (n id addr : Nat) (s : State) : State :=
  let s := opLost n id addr s
  if s.step.open_ then { s with step := { s.step with blk := s.step.blk ||| 4 } } else s

/-- A request of transfer `c` is answered: it goes on, or stops. -/
def xferAnswer (c : Nat) (f : Flight) (stat : Nat) (data : List Byte) (s : State) : State :=
  let s := if stat = 0 then xferOk c f.owner data s else xferErr c f stat data s
  snapGo (moversGo s)

/-- A read-back of the separator's fence is answered; one that fails raises its port's fault (R104, R32). -/
def fenceAnswer (pp : Bool) (chip : BitVec 17) (f : Flight) (stat : Nat) (data : List Byte) (s : State) : State :=
  let code := statFault f.port stat
  let s := if stat = 0 then s else raise code (recWord none 0xFF 0 0) (BitVec.ofNat 64 (rspInfo f code stat data f.addr)) s
  let mine (b : ReadBack) : Bool := !b.ring && b.pp == pp && b.chip == chip && b.st == 1
  { s with readback := lmod mine (fun b => { b with st := 2 }) s.readback }

/-- What a request's answer does for its owner; `stat` is its STAT, reserved values read as TGT_ERR (R32). -/
def answered (f : Flight) (stat : Nat) (data : List Byte) (s : State) : State :=
  match f.owner with
  | .blockRd n id u blk off => churnsGo (partIn n.toNat id u blk off f stat data s)
  | .mapRd n id g e => churnsGo (mapIn n.toNat id g e stat data s)
  | .store n id e blk m => churnsGo (if stat = 0 then s else storeLost n.toNat id e blk m f.addr s)
  | .mapWb n _ e =>
    sleepEnd n.toNat (if stat = 0 then s else churnFault 1 (recWord (some e) 0xFF n.toNat 2) (BitVec.ofNat 64 f.addr) s)
  | .memOut n id => if stat = 0 then s else opLost n.toNat id f.addr s
  | .mapFw n g e => churnsGo (if stat = 0 then mapFilled n.toNat g e data s else mapFillLost n.toNat g e f.addr s)
  | .updRd n id frame e0 plane => churnGo n.toNat (planeIn n.toNat id frame e0 plane f stat data s)
  | .updWr n id => if stat = 0 then s else updLost n.toNat id f.addr s
  | .chanRd c _ | .chanWr c _ | .chanBar c | .chanSg c => xferAnswer c f stat data s
  | .ladleRd r _ | .ladleWr r | .ringBar r _ => ringAnswer r.toNat f stat data s
  | .fetch r => fetchDone r.toNat f.port f.addr stat (bytesWords 16 data) s
  | .probe k => probeDone k.toNat stat s
  | .sepBar pp chip => fenceAnswer pp chip f stat data s
  | .window id off => winAnswer id off f stat data s
  | .gone => s

/-- Requests that completed inside the block reach their owners as TGT_ERR (R47, R390), at most `k` of them. -/
def drainDead : Nat → State → State
  | 0, s => s
  | k + 1, s =>
    match s.dead with
    | [] => s
    | f :: r => drainDead k (answered f 2 [] { s with dead := r })

/-- Requests that completed inside the block reach their owners. -/
def finish (s : State) : State := if s.dead.isEmpty then s else drainDead 65536 s

/-- A response on a requester channel (R35, R37, R46). -/
def responseIn (p : PortId) (tag : BitVec 16) (stat : BitVec 4) (data : List Byte) (s : State) : State :=
  match takeOut (fun f => f.port == p && f.tag == tag) s.inflight with
  | some (f, r) =>
    let s := { s with inflight := r }
    let e := statErr stat.toNat
    let (d, s) := if e != 0 then (data, s) else if f.rd then fitData f.len data s else ([], s)
    pumpAll p (finish (answered f e d s))
  | none =>
    if s.late.contains (p, tag) then pumpAll p { s with late := s.late.filter fun l => l != (p, tag) }
    else tagFault p (rspHi tag stat data) s

/-- The ports with a requester channel that expects responses: MPn, HBP and PP (R34). -/
def isRequester (p : PortId) : Bool := tagCount p != 0

/-- MP_RESPONSE, R35: a response arrives on MPn_RSP, HBP_MRSP or PP_MRSP. -/
def execMpResponse (p : PortId) (tag : BitVec 16) (stat : BitVec 4) (data : List Byte) (s : State) : Out :=
  if !isRequester p then .next s
  else hostGate (.mpResponse p tag stat data) (fun s => if !linkOk s p then .next s else done (responseIn p tag stat data s)) s

/-- A port's field of FL_TMO (R46). -/
def tmoField (s : State) : PortId → Nat
  | .mp _ => fld (rd s .flTmo) 15 0
  | .hbp => fld (rd s .flTmo) 31 16
  | .pp => fld (rd s .flTmo) 47 32
  | _ => 0

/-- A response timer expires (R46): the request completes as TGT_ERR, and its tag stays away until the late response. -/
def timeoutIn (p : PortId) (tag : BitVec 16) (s : State) : State :=
  match takeOut (fun f => f.port == p && f.tag == tag) s.inflight with
  | some (f, r) =>
    if tmoField s p = 0 then s
    else pumpAll p (finish (answered f 2 [] { s with inflight := r, late := s.late ++ [(p, tag)] }))
  | none => s

/-- RESPONSE_TIMEOUT, R46. -/
def execResponseTimeout (p : PortId) (tag : BitVec 16) (s : State) : Out := inner (timeoutIn p tag) s

/-! ## Credits and links -/

/-- Whether the block sends requests or messages on port `p` (R28). -/
def sendsOn : PortId → Bool
  | .cp => false
  | _ => true

/-- A credit counter after a return: 16 bits; what an overflow leaves is not stated and free (R40). -/
def creditAdd (x : BitVec 16) (k : Nat) (s : State) : BitVec 16 × State :=
  if x.toNat + k ≤ 65535 then (x + BitVec.ofNat 16 k, s) else ((Config.freeWord s.freeCtr).setWidth 16, tickFree s)

/-- Credits return on port `p` (R38, R40). -/
def creditIn (p : PortId) (h d : Nat) (s : State) : State :=
  let x := portAt s p
  let past := x.hdr.toNat + h > 65535 ∨ x.dat.toNat + d > 65535
  let (hdr, s) := creditAdd x.hdr h s
  let (dat, s) := creditAdd x.dat d s
  let s := setPort s p { x with hdr := hdr, dat := dat }
  pumpAll p (if past then tagFault p 0 s else s)

/-- CREDIT_RETURN, R38: taken on a link that is up, also before READY, since the links open in phase 7 (R49, R366). -/
def execCreditReturn (p : PortId) (h : BitVec 4) (d : BitVec 8) (s : State) : Out :=
  if !sendsOn p || inReset s || !linkOk s p then .next s
  else if !fclkOn s then done (hold (.creditReturn p h d) s)
  else done (creditIn p h.toNat d.toNat s)

/-- LINKUP_RISE, R49: p_LINKUP_I rises; once both sides are up the block has returned its credits. In the aon-only state it starts the
PLL (R360). -/
def execLinkupRise (p : PortId) (s : State) : Out :=
  if (portAt s p).inUp then .next s
  else
    let s := setPort s p (portUp (portIx p) { portAt s p with inUp := true })
    let s := if s.sys.aons then { s with sys := { s.sys with aonWaking := true } } else s
    done (if p = .hbp ∧ linkOk s .hbp ∧ fclkOn s then linkOpened s else s)

/-- Whether a waiting command came in at port `p`. -/
def cameFrom (p : PortId) (c : Instr) : Bool :=
  match c with
  | .mpResponse q .. | .creditReturn q .. => q == p
  | _ =>
    match cmdPort c, cmdOrigin c with
    | some (q, _), _ => q == p
    | none, some .cp => p == .cp
    | none, some .hbp => p == .hbp
    | none, _ => false

/-- The requests of port `p` that wait to be driven and expect a response, as requests that failed. -/
def waitingReqs (p : PortId) (s : State) : List Flight :=
  s.txq.filterMap fun x =>
    match x.owner with
    | some o =>
      if x.m.port == p then
        some { port := p, tag := 0, rd := x.m.opc == 1, addr := x.m.addr.toNat, len := x.m.len + 1, owner := o }
      else none
    | none => none

/-- What the fall of a link takes with it at once, in the bridges: what came in and waits there is lost with the link (R47). -/
def bridgeLost (p : PortId) (s : State) : State := { s with bridges := s.bridges.filter fun c => !cameFrom p c }

/-- A posted write or SIG of a channel that waited for a link that falls was never issued, and the channel halts at it (R231, R390). -/
def moverLost (s : State) (y : TxReq) : State :=
  match y.src with
  | some c =>
    if (chanOf c).isNone || y.owner.isSome then s
    else
      let s := modX c (fun x =>
        if y.m.opc = 4 then { x with sigd := false } else { x with fails := x.fails ++ [x.wpos - (y.m.len + 1)] }) s
      xferFail c 2 (statFault y.m.port 2) true y.m.addr.toNat y.m.addr.toNat s
  | none => s

/-- What the fall of a link that was open takes with it in the hub (R47): requests in flight complete as TGT_ERR, tags are free, credits
are 0, and the port's bus fault is raised once. What waits to be sent is treated as R390 says. No address is stated for the fault (log
entry 12). -/
def linkLost (p : PortId) (s : State) : State :=
  let x := portAt s p
  let out := s.inflight.filter fun f => f.port == p
  let waited := s.txq.filter fun y => y.m.port == p
  let s := { s with
    dead := s.dead ++ out ++ waitingReqs p s
    inflight := s.inflight.filter fun f => f.port != p
    late := s.late.filter fun l => l.1 != p
    txq := s.txq.filter fun y => y.m.port != p
    wins := s.wins.map fun w => if w.port == p then { w with posted := true } else w
    units := if p = .pp then [] else s.units }
  let s := setPort s p { outUp := x.outUp, everUp := x.everUp }
  let s := raisePort p (Config.freeWord s.freeCtr) (tickFree s)
  let s := waited.foldl (fun s y => issuedTx y.src (moverLost s y)) s
  let s := if p = .hbp ∧ s.snap.rbusy then restoreAbort 2 s else s
  if live s then finish s else s

/-- LINKUP_FALL, R47: p_LINKUP_I falls. While fclk is stopped the hub holds its state and learns of the fall when fclk resumes (R353; log
entry 89). -/
def execLinkupFall (p : PortId) (s : State) : Out :=
  let x := portAt s p
  if !x.inUp then .next s
  else if !x.outUp then .next (setPort s p { x with inUp := false })
  else if fclkOn s then done (linkLost p (bridgeLost p s))
  else done (bridgeLost p (setPort s p { x with inUp := false, fell := true }))

/-! ## The return of fclk -/

/-- The port with number `i`. -/
def portNo (i : Nat) : PortId :=
  if i < 32 then mpP i
  else if i < 64 then fpP (i - 32)
  else match i with | 64 => .hbp | 65 => .pp | 66 => .cp | _ => .ccp

/-- The hub learns of a fall that came while fclk was stopped; the link may have risen again since (R47, R49, R353). -/
def fellReport (s : State) (i : Nat) : State :=
  let p := portNo i
  let x := portAt s p
  if !x.fell then s
  else
    let s := linkLost p s
    setPort s p (portUp i { portAt s p with inUp := x.inUp, fell := false })

/-- Header bits [127:64] of a waiting request (R375). -/
def cmdHdr : Instr → Nat
  | .inboundWrite _ r | .sig _ r | .hbpTargetRequest r | .cpRequest r | .ppTargetRequest r | .sealRecord r | .sealWindowRd r => hdrHi r
  | .ticketDone m | .layerStart m | .semSignal m => m.h.toNat
  | .ccpMessageDrop h => (h.extractLsb' 64 64).toNat
  | _ => 0

/-- The requests that came while fclk was stopped are held to the credits of their ports, in the order they came (R40). -/
def creditCheck (s : State) : State :=
  s.bridges.foldl (fun s c =>
    match cmdPort c with
    | some (p, d) =>
      if !linkOk s p || hasRx s p d then { s with bridges := s.bridges ++ [c] } else tagFault p (cmdHdr c) s
    | none => { s with bridges := s.bridges ++ [c] }) { s with bridges := [] }

/-- Whether a held command acts once fclk runs, READY or not: a credit return, TEST_ENTER and a write that may set LEAVE (R49, R368,
R374). -/
def actsEarly (c : Instr) : Bool :=
  match c with
  | .creditReturn .. | .testEnter => true
  | _ => (cmdAccess c).any fun x => Reg.off x.2 == Reg.off .sysCtl

/-- What the hub catches up with when fclk resumes: links that fell, requests without credit, slots that were zeroized, interrupt
messages that a link lets go, and what does not wait for READY (R40, R47, R288, R343, R353). -/
def fclkResume (s : State) : State :=
  let s := creditCheck ((List.range 68).foldl fellReport s)
  let s := (List.range 8).foldl (fun s k => if (keyAt s k).valid then s else slotLost k s) s
  let s := if linkOk s .hbp then linkOpened s else s
  if s.sys.phase = 8 then s
  else { s with pending := s.bridges.filter actsEarly ++ s.pending, bridges := s.bridges.filter fun c => !actsEarly c }

/-- PLL_LOCK, R353, R360: fclk resumes, and the aon-only state ends. -/
def execPllLock (s : State) : Out :=
  if !locking s then .next s
  else
    let woke := s.sys.aons
    let s := { s with sys := { s.sys with
      lock := true, cfgerr := s.sys.cfgerr || badN s.sys.pll, aons := false, aonWaking := false } }
    done (fclkResume (if woke then openPorts s else s))

end Sys2Proof.Machine
end

