-- ==== Sys2Proof/Machine/Flags.lean ====
section
/-! DEFINITION. The separator's flags are its predicates p0 to p7 (R80, R81): the forms that compute one. -/

namespace Sys2Proof.Machine

/-- A compare: the outcome of `f` on gA and gB is written to p[D]. -/
def cmpR (i : Instr) (g : Guard) (f : Word → Word → Bool) (pd : BitVec 3) (a b : BitVec 6) (s : State) : Out :=
  issue i g (fun s => .done (pW pd (f (gR s a) (gR s b)) s)) s

/-- A predicate operation. -/
def prdR (i : Instr) (g : Guard) (f : Bool → Bool → Bool) (pd pa pb : BitVec 3) (s : State) : Out :=
  issue i g (fun s => .done (pW pd (f (pR s pa) (pR s pb)) s)) s

end Sys2Proof.Machine
end

