-- ==== Sys2Proof/Machine/Scalar.lean ====
section
/-! DEFINITION. Scalar, predicate, memory and control-flow instructions of the separator (R89 to R91). -/

namespace Sys2Proof.Machine

/-- A register form: the result of `f` on gA and gB is written to gD. -/
def aluR (i : Instr) (g : Guard) (f : Word → Word → Word) (d a b : BitVec 6) (s : State) : Out :=
  issue i g (fun s => .done (gW d (f (gR s a) (gR s b)) s)) s

/-- An immediate form: the result of `f` on gA and the sign-extended immediate is written to gD. -/
def aluI (i : Instr) (g : Guard) (f : Word → Word → Word) (d a : BitVec 6) (imm : BitVec 36) (s : State) : Out :=
  issue i g (fun s => .done (gW d (f (gR s a) (imm36 imm)) s)) s

/-- ADD, R89. -/
def execAdd (g : Guard) (d a b : BitVec 6) (s : State) : Out := aluR (.add g d a b) g (· + ·) d a b s
/-- SUB, R89. -/
def execSub (g : Guard) (d a b : BitVec 6) (s : State) : Out := aluR (.sub g d a b) g (· - ·) d a b s
/-- AND, R89. -/
def execAnd (g : Guard) (d a b : BitVec 6) (s : State) : Out := aluR (.and g d a b) g (· &&& ·) d a b s
/-- OR, R89. -/
def execOr (g : Guard) (d a b : BitVec 6) (s : State) : Out := aluR (.or g d a b) g (· ||| ·) d a b s
/-- XOR, R89. -/
def execXor (g : Guard) (d a b : BitVec 6) (s : State) : Out := aluR (.xor g d a b) g (· ^^^ ·) d a b s
/-- SHL, R89. -/
def execShl (g : Guard) (d a b : BitVec 6) (s : State) : Out :=
  aluR (.shl g d a b) g (fun x y => x <<< shAmt y) d a b s
/-- SHR, R89. -/
def execShr (g : Guard) (d a b : BitVec 6) (s : State) : Out :=
  aluR (.shr g d a b) g (fun x y => x >>> shAmt y) d a b s
/-- SRA, R89. -/
def execSra (g : Guard) (d a b : BitVec 6) (s : State) : Out :=
  aluR (.sra g d a b) g (fun x y => x.sshiftRight (shAmt y)) d a b s
/-- MIN, R89. -/
def execMin (g : Guard) (d a b : BitVec 6) (s : State) : Out := aluR (.min g d a b) g minS d a b s
/-- MAX, R89. -/
def execMax (g : Guard) (d a b : BitVec 6) (s : State) : Out := aluR (.max g d a b) g maxS d a b s
/-- MINU, R89. -/
def execMinu (g : Guard) (d a b : BitVec 6) (s : State) : Out := aluR (.minu g d a b) g minU d a b s
/-- MAXU, R89. -/
def execMaxu (g : Guard) (d a b : BitVec 6) (s : State) : Out := aluR (.maxu g d a b) g maxU d a b s
/-- MUL, R89. -/
def execMul (g : Guard) (d a b : BitVec 6) (s : State) : Out := aluR (.mul g d a b) g (· * ·) d a b s
/-- MULHU, R89. -/
def execMulhu (g : Guard) (d a b : BitVec 6) (s : State) : Out := aluR (.mulhu g d a b) g mulHi d a b s
/-- DIVU, R89. -/
def execDivu (g : Guard) (d a b : BitVec 6) (s : State) : Out := aluR (.divu g d a b) g divU d a b s
/-- REMU, R89. -/
def execRemu (g : Guard) (d a b : BitVec 6) (s : State) : Out := aluR (.remu g d a b) g remU d a b s

/-- ADDI, R89. -/
def execAddi (g : Guard) (d a : BitVec 6) (imm : BitVec 36) (s : State) : Out :=
  aluI (.addi g d a imm) g (· + ·) d a imm s
/-- ANDI, R89. -/
def execAndi (g : Guard) (d a : BitVec 6) (imm : BitVec 36) (s : State) : Out :=
  aluI (.andi g d a imm) g (· &&& ·) d a imm s
/-- ORI, R89. -/
def execOri (g : Guard) (d a : BitVec 6) (imm : BitVec 36) (s : State) : Out :=
  aluI (.ori g d a imm) g (· ||| ·) d a imm s
/-- XORI, R89. -/
def execXori (g : Guard) (d a : BitVec 6) (imm : BitVec 36) (s : State) : Out :=
  aluI (.xori g d a imm) g (· ^^^ ·) d a imm s
/-- SHLI: the amount is IMM[5:0], R89. -/
def execShli (g : Guard) (d a : BitVec 6) (imm : BitVec 36) (s : State) : Out :=
  aluI (.shli g d a imm) g (fun x y => x <<< shAmt y) d a imm s
/-- SHRI: the amount is IMM[5:0], R89. -/
def execShri (g : Guard) (d a : BitVec 6) (imm : BitVec 36) (s : State) : Out :=
  aluI (.shri g d a imm) g (fun x y => x >>> shAmt y) d a imm s
/-- SRAI: the amount is IMM[5:0], R89. -/
def execSrai (g : Guard) (d a : BitVec 6) (imm : BitVec 36) (s : State) : Out :=
  aluI (.srai g d a imm) g (fun x y => x.sshiftRight (shAmt y)) d a imm s
/-- LI, R89. -/
def execLi (g : Guard) (d : BitVec 6) (imm : BitVec 36) (s : State) : Out :=
  issue (.li g d imm) g (fun s => .done (gW d (imm36 imm) s)) s
/-- LIH, R89. -/
def execLih (g : Guard) (d : BitVec 6) (imm : BitVec 28) (s : State) : Out :=
  issue (.lih g d imm) g (fun s => .done (gW d (lihVal (gR s d) imm) s)) s

/-- CEQ, R89. -/
def execCeq (g : Guard) (pd : BitVec 3) (a b : BitVec 6) (s : State) : Out := cmpR (.ceq g pd a b) g (· == ·) pd a b s
/-- CNE, R89. -/
def execCne (g : Guard) (pd : BitVec 3) (a b : BitVec 6) (s : State) : Out := cmpR (.cne g pd a b) g (· != ·) pd a b s
/-- CLT, R89. -/
def execClt (g : Guard) (pd : BitVec 3) (a b : BitVec 6) (s : State) : Out :=
  cmpR (.clt g pd a b) g BitVec.slt pd a b s
/-- CLTU, R89. -/
def execCltu (g : Guard) (pd : BitVec 3) (a b : BitVec 6) (s : State) : Out :=
  cmpR (.cltu g pd a b) g BitVec.ult pd a b s
/-- CLE, R89. -/
def execCle (g : Guard) (pd : BitVec 3) (a b : BitVec 6) (s : State) : Out :=
  cmpR (.cle g pd a b) g BitVec.sle pd a b s
/-- CLEU, R89. -/
def execCleu (g : Guard) (pd : BitVec 3) (a b : BitVec 6) (s : State) : Out :=
  cmpR (.cleu g pd a b) g BitVec.ule pd a b s

/-- PAND, R89. -/
def execPand (g : Guard) (pd pa pb : BitVec 3) (s : State) : Out := prdR (.pand g pd pa pb) g (· && ·) pd pa pb s
/-- POR, R89. -/
def execPor (g : Guard) (pd pa pb : BitVec 3) (s : State) : Out := prdR (.por g pd pa pb) g (· || ·) pd pa pb s
/-- PXOR, R89. -/
def execPxor (g : Guard) (pd pa pb : BitVec 3) (s : State) : Out := prdR (.pxor g pd pa pb) g xor pd pa pb s
/-- PANDN, R89. -/
def execPandn (g : Guard) (pd pa pb : BitVec 3) (s : State) : Out :=
  prdR (.pandn g pd pa pb) g (fun x y => x && !y) pd pa pb s

/-- Whether a data memory address is legal for an access of `n` bytes (R90). -/
def dmOk (a : Word) (n : Nat) : Bool := a.toNat % n == 0 && decide (a.toNat < dmSize)

/-- A memory instruction: ILLEGAL_OP with the address unless it is legal (R90). -/
def memOp (i : Instr) (g : Guard) (a : BitVec 6) (imm : Word) (n : Nat) (f : Nat → State → State) (s : State) : Out :=
  issue i g (fun s =>
    let ad := gR s a + imm
    if dmOk ad n then .done (f ad.toNat s) else .trap 0x14 (some (ad.setWidth 32)) none false) s

/-- LD, R90. -/
def execLd (g : Guard) (d a : BitVec 6) (imm : BitVec 36) (s : State) : Out :=
  memOp (.ld g d a imm) g a (imm36 imm) 8 (fun ad s => gW d (dmRead s ad) s) s
/-- ST, R90. -/
def execSt (g : Guard) (d a : BitVec 6) (imm : BitVec 36) (s : State) : Out :=
  memOp (.st g d a imm) g a (imm36 imm) 8 (fun ad s => dmWrite ad (wordBytes (gR s d)) s) s
/-- LDT, R90. -/
def execLdt (g : Guard) (t : BitVec 4) (a : BitVec 6) (imm : BitVec 26) (s : State) : Out :=
  memOp (.ldt g t a imm) g a (imm26 imm) 32
    (fun ad s => tW t { w0 := dmRead s ad, w1 := dmRead s (ad + 8), w2 := dmRead s (ad + 16), w3 := dmRead s (ad + 24) } s) s
/-- The 32 bytes of a descriptor, word 0 first (R82). -/
def descBytes (d : Desc) : List Byte := wordsBytes [d.w0, d.w1, d.w2, d.w3]
/-- STT, R90. -/
def execStt (g : Guard) (t : BitVec 4) (a : BitVec 6) (imm : BitVec 26) (s : State) : Out :=
  memOp (.stt g t a imm) g a (imm26 imm) 32 (fun ad s => dmWrite ad (descBytes (tR s t)) s) s
/-- TGETW, R90. -/
def execTgetw (g : Guard) (d : BitVec 6) (t : BitVec 4) (w : BitVec 2) (s : State) : Out :=
  issue (.tgetw g d t w) g (fun s => .done (gW d ((tR s t).word w) s)) s
/-- TSETW, R90. -/
def execTsetw (g : Guard) (t : BitVec 4) (a : BitVec 6) (w : BitVec 2) (s : State) : Out :=
  issue (.tsetw g t a w) g (fun s => .done (tW t ((tR s t).setWord w (gR s a)) s)) s

/-- BR, R91. -/
def execBr (g : Guard) (tgt : BitVec 15) (s : State) : Out := issue (.br g tgt) g (fun s => .goto s tgt) s
/-- CALL: g63 := pc + 1, as a 64-bit number, R91. -/
def execCall (g : Guard) (tgt : BitVec 15) (s : State) : Out :=
  issue (.call g tgt) g (fun s => .goto (gW 63 (BitVec.ofNat 64 (s.sep.pc.toNat + 1)) s) tgt) s
/-- RET, R91. -/
def execRet (g : Guard) (s : State) : Out :=
  issue (.ret g) g (fun s =>
    let r := gR s 63
    if r.toNat < 32768 then .goto s (r.setWidth 15) else .trap 0x14 none none false) s

end Sys2Proof.Machine
end

