-- ==== Sys2Proof/Machine/Dispatch.lean ====
section
/-! DEFINITION. One arm per command: the meaning each command has. -/

namespace Sys2Proof.Machine

/-- The effect of a command on everything but the queue. -/
def exec (i : Instr) (s : State) : Host.Outcome State Fault Refusal :=
  match i with
  | .nop g => Sys2Proof.Machine.execNop g s
  | .halt g => Sys2Proof.Machine.execHalt g s
  | .trap g imm => Sys2Proof.Machine.execTrap g imm s
  | .rdsr g d idx => Sys2Proof.Machine.execRdsr g d idx s
  | .wrsr g a idx => Sys2Proof.Machine.execWrsr g a idx s
  | .rte g => Sys2Proof.Machine.execRte g s
  | .add g d a b => Sys2Proof.Machine.execAdd g d a b s
  | .sub g d a b => Sys2Proof.Machine.execSub g d a b s
  | .and g d a b => Sys2Proof.Machine.execAnd g d a b s
  | .or g d a b => Sys2Proof.Machine.execOr g d a b s
  | .xor g d a b => Sys2Proof.Machine.execXor g d a b s
  | .shl g d a b => Sys2Proof.Machine.execShl g d a b s
  | .shr g d a b => Sys2Proof.Machine.execShr g d a b s
  | .sra g d a b => Sys2Proof.Machine.execSra g d a b s
  | .min g d a b => Sys2Proof.Machine.execMin g d a b s
  | .max g d a b => Sys2Proof.Machine.execMax g d a b s
  | .minu g d a b => Sys2Proof.Machine.execMinu g d a b s
  | .maxu g d a b => Sys2Proof.Machine.execMaxu g d a b s
  | .mul g d a b => Sys2Proof.Machine.execMul g d a b s
  | .mulhu g d a b => Sys2Proof.Machine.execMulhu g d a b s
  | .divu g d a b => Sys2Proof.Machine.execDivu g d a b s
  | .remu g d a b => Sys2Proof.Machine.execRemu g d a b s
  | .addi g d a imm => Sys2Proof.Machine.execAddi g d a imm s
  | .andi g d a imm => Sys2Proof.Machine.execAndi g d a imm s
  | .ori g d a imm => Sys2Proof.Machine.execOri g d a imm s
  | .xori g d a imm => Sys2Proof.Machine.execXori g d a imm s
  | .shli g d a imm => Sys2Proof.Machine.execShli g d a imm s
  | .shri g d a imm => Sys2Proof.Machine.execShri g d a imm s
  | .srai g d a imm => Sys2Proof.Machine.execSrai g d a imm s
  | .li g d imm => Sys2Proof.Machine.execLi g d imm s
  | .lih g d imm => Sys2Proof.Machine.execLih g d imm s
  | .ceq g pd a b => Sys2Proof.Machine.execCeq g pd a b s
  | .cne g pd a b => Sys2Proof.Machine.execCne g pd a b s
  | .clt g pd a b => Sys2Proof.Machine.execClt g pd a b s
  | .cltu g pd a b => Sys2Proof.Machine.execCltu g pd a b s
  | .cle g pd a b => Sys2Proof.Machine.execCle g pd a b s
  | .cleu g pd a b => Sys2Proof.Machine.execCleu g pd a b s
  | .pand g pd pa pb => Sys2Proof.Machine.execPand g pd pa pb s
  | .por g pd pa pb => Sys2Proof.Machine.execPor g pd pa pb s
  | .pxor g pd pa pb => Sys2Proof.Machine.execPxor g pd pa pb s
  | .pandn g pd pa pb => Sys2Proof.Machine.execPandn g pd pa pb s
  | .ld g d a imm => Sys2Proof.Machine.execLd g d a imm s
  | .st g d a imm => Sys2Proof.Machine.execSt g d a imm s
  | .ldt g t a imm => Sys2Proof.Machine.execLdt g t a imm s
  | .stt g t a imm => Sys2Proof.Machine.execStt g t a imm s
  | .tgetw g d t w => Sys2Proof.Machine.execTgetw g d t w s
  | .tsetw g t a w => Sys2Proof.Machine.execTsetw g t a w s
  | .br g tgt => Sys2Proof.Machine.execBr g tgt s
  | .call g tgt => Sys2Proof.Machine.execCall g tgt s
  | .ret g => Sys2Proof.Machine.execRet g s
  | .mkent g t => Sys2Proof.Machine.execMkent g t s
  | .mkdrop g t => Sys2Proof.Machine.execMkdrop g t s
  | .dset g a b x => Sys2Proof.Machine.execDset g a b x s
  | .drd g d a x => Sys2Proof.Machine.execDrd g d a x s
  | .spill g pd a => Sys2Proof.Machine.execSpill g pd a s
  | .recall g a => Sys2Proof.Machine.execRecall g a s
  | .drop g a => Sys2Proof.Machine.execDrop g a s
  | .rel g a => Sys2Proof.Machine.execRel g a s
  | .stin g t a => Sys2Proof.Machine.execStin g t a s
  | .stout g t a => Sys2Proof.Machine.execStout g t a s
  | .cop g t a => Sys2Proof.Machine.execCop g t a s
  | .upd g t a => Sys2Proof.Machine.execUpd g t a s
  | .tkt g d t => Sys2Proof.Machine.execTkt g d t s
  | .tkw g a => Sys2Proof.Machine.execTkw g a s
  | .sacq g a b side => Sys2Proof.Machine.execSacq g a b side s
  | .srel g a b side => Sys2Proof.Machine.execSrel g a b side s
  | .fence g scope => Sys2Proof.Machine.execFence g scope s
  | .lfence g => Sys2Proof.Machine.execLfence g s
  | .hmv g a b => Sys2Proof.Machine.execHmv g a b s
  | .hwt g pd a => Sys2Proof.Machine.execHwt g pd a s
  | .epbeg g => Sys2Proof.Machine.execEpbeg g s
  | .eprdy g pd => Sys2Proof.Machine.execEprdy g pd s
  | .epcmt g => Sys2Proof.Machine.execEpcmt g s
  | .eprb g => Sys2Proof.Machine.execEprb g s
  | .snap g => Sys2Proof.Machine.execSnap g s
  | .lfenceTimeout => Sys2Proof.Machine.execLfenceTimeout s
  | .deferredFetchEnqueue slot => Sys2Proof.Machine.execDeferredFetchEnqueue slot s
  | .sepCtlStart o v => Sys2Proof.Machine.execSepCtlStart o v s
  | .sepCtlStop o v => Sys2Proof.Machine.execSepCtlStop o v s
  | .sepCtlStep o v => Sys2Proof.Machine.execSepCtlStep o v s
  | .sepPcWrite o v => Sys2Proof.Machine.execSepPcWrite o v s
  | .instructionMemoryWrite o a v => Sys2Proof.Machine.execInstructionMemoryWrite o a v s
  | .dataMemoryWrite o a v => Sys2Proof.Machine.execDataMemoryWrite o a v s
  | .churnOpArrive n => Sys2Proof.Machine.execChurnOpArrive n s
  | .churnOpDispatch n => Sys2Proof.Machine.execChurnOpDispatch n s
  | .streamInOp n id => Sys2Proof.Machine.execStreamInOp n id s
  | .streamInOpComplete n id => Sys2Proof.Machine.execStreamInOpComplete n id s
  | .streamOutOp n id => Sys2Proof.Machine.execStreamOutOp n id s
  | .streamOutOpComplete n id => Sys2Proof.Machine.execStreamOutOpComplete n id s
  | .tileDeliver n id => Sys2Proof.Machine.execTileDeliver n id s
  | .ldvec n id => Sys2Proof.Machine.execLdvec n id s
  | .rowdot n id => Sys2Proof.Machine.execRowdot n id s
  | .rowstat n id => Sys2Proof.Machine.execRowstat n id s
  | .rowPartial n id row seg => Sys2Proof.Machine.execRowPartial n id row seg s
  | .rowStatsArrive n id row => Sys2Proof.Machine.execRowStatsArrive n id row s
  | .updateOp n id => Sys2Proof.Machine.execUpdateOp n id s
  | .updateOpComplete n id => Sys2Proof.Machine.execUpdateOpComplete n id s
  | .ticketDone m => Sys2Proof.Machine.execTicketDone m s
  | .layerStart m => Sys2Proof.Machine.execLayerStart m s
  | .semSignal m => Sys2Proof.Machine.execSemSignal m s
  | .ccpMessageDrop hdr => Sys2Proof.Machine.execCcpMessageDrop hdr s
  | .sig p r => Sys2Proof.Machine.execSig p r s
  | .inboundWrite n r => Sys2Proof.Machine.execInboundWrite n r s
  | .deadlineMiss id => Sys2Proof.Machine.execDeadlineMiss id s
  | .ctxOpen o => Sys2Proof.Machine.execCtxOpen o s
  | .ctxClose o => Sys2Proof.Machine.execCtxClose o s
  | .ctxRead o => Sys2Proof.Machine.execCtxRead o s
  | .stripeWtWrite o st h v => Sys2Proof.Machine.execStripeWtWrite o st h v s
  | .chunkSweep n => Sys2Proof.Machine.execChunkSweep n s
  | .reencodeComplete e => Sys2Proof.Machine.execReencodeComplete e s
  | .spillComplete e => Sys2Proof.Machine.execSpillComplete e s
  | .recallComplete e => Sys2Proof.Machine.execRecallComplete e s
  | .coldCellarWrite o size v => Sys2Proof.Machine.execColdCellarWrite o size v s
  | .dirSelWrite o v => Sys2Proof.Machine.execDirSelWrite o v s
  | .cbLoad o mask gen => Sys2Proof.Machine.execCbLoad o mask gen s
  | .cbRetire o mask gen => Sys2Proof.Machine.execCbRetire o mask gen s
  | .forceFree o mask gen => Sys2Proof.Machine.execForceFree o mask gen s
  | .ftLoad o mask tid => Sys2Proof.Machine.execFtLoad o mask tid s
  | .ftSwap o mask tid => Sys2Proof.Machine.execFtSwap o mask tid s
  | .go o c => Sys2Proof.Machine.execGo o c s
  | .resume o c => Sys2Proof.Machine.execResume o c s
  | .clr o c => Sys2Proof.Machine.execClr o c s
  | .abort o c => Sys2Proof.Machine.execAbort o c s
  | .abortComplete c => Sys2Proof.Machine.execAbortComplete c s
  | .channelStart c => Sys2Proof.Machine.execChannelStart c s
  | .transferComplete c => Sys2Proof.Machine.execTransferComplete c s
  | .mvHownWrite o v => Sys2Proof.Machine.execMvHownWrite o v s
  | .mpResponse p tag stat data => Sys2Proof.Machine.execMpResponse p tag stat data s
  | .responseTimeout p tag => Sys2Proof.Machine.execResponseTimeout p tag s
  | .creditReturn p h d => Sys2Proof.Machine.execCreditReturn p h d s
  | .linkupRise p => Sys2Proof.Machine.execLinkupRise p s
  | .linkupFall p => Sys2Proof.Machine.execLinkupFall p s
  | .cpRequest r => Sys2Proof.Machine.execCpRequest r s
  | .hbpTargetRequest r => Sys2Proof.Machine.execHbpTargetRequest r s
  | .ppTargetRequest r => Sys2Proof.Machine.execPpTargetRequest r s
  | .sealRecord r => Sys2Proof.Machine.execSealRecord r s
  | .sealWindowRd r => Sys2Proof.Machine.execSealWindowRd r s
  | .sealedCopyExpire chip unit => Sys2Proof.Machine.execSealedCopyExpire chip unit s
  | .ringDbWrite o r v => Sys2Proof.Machine.execRingDbWrite o r v s
  | .ringEnable o r v => Sys2Proof.Machine.execRingEnable o r v s
  | .ringDisable o r v => Sys2Proof.Machine.execRingDisable o r v s
  | .commandFetch r => Sys2Proof.Machine.execCommandFetch r s
  | .commandFetchResponse r stat ws => Sys2Proof.Machine.execCommandFetchResponse r stat ws s
  | .commandRetry r => Sys2Proof.Machine.execCommandRetry r s
  | .cmdTimeout r => Sys2Proof.Machine.execCmdTimeout r s
  | .cmdNop r => Sys2Proof.Machine.execCmdNop r s
  | .run r => Sys2Proof.Machine.execRun r s
  | .runHoldComplete r => Sys2Proof.Machine.execRunHoldComplete r s
  | .load r => Sys2Proof.Machine.execLoad r s
  | .ladleWr r => Sys2Proof.Machine.execLadleWr r s
  | .ladleRd r => Sys2Proof.Machine.execLadleRd r s
  | .move r => Sys2Proof.Machine.execMove r s
  | .sem r => Sys2Proof.Machine.execSem r s
  | .fenceCommand r => Sys2Proof.Machine.execFenceCommand r s
  | .p2pEnable o k v => Sys2Proof.Machine.execP2pEnable o k v s
  | .p2pProbeResponse k stat => Sys2Proof.Machine.execP2pProbeResponse k stat s
  | .irqMsgMaskWrite o v x => Sys2Proof.Machine.execIrqMsgMaskWrite o v x s
  | .fltStatClear o v => Sys2Proof.Machine.execFltStatClear o v s
  | .rcCounterRead o off => Sys2Proof.Machine.execRcCounterRead o off s
  | .pop o n => Sys2Proof.Machine.execPop o n s
  | .planCtlClr o => Sys2Proof.Machine.execPlanCtlClr o s
  | .prmEnable o k v => Sys2Proof.Machine.execPrmEnable o k v s
  | .take o k => Sys2Proof.Machine.execTake o k s
  | .prmHoldRel o k => Sys2Proof.Machine.execPrmHoldRel o k s
  | .commit o step snap => Sys2Proof.Machine.execCommit o step snap s
  | .stepAbort o step => Sys2Proof.Machine.execStepAbort o step s
  | .nonfin o step => Sys2Proof.Machine.execNonfin o step s
  | .snapshotDone => Sys2Proof.Machine.execSnapshotDone s
  | .snapDue => Sys2Proof.Machine.execSnapDue s
  | .restore o area => Sys2Proof.Machine.execRestore o area s
  | .restoreDone => Sys2Proof.Machine.execRestoreDone s
  | .snapAbort cause => Sys2Proof.Machine.execSnapAbort cause s
  | .keySlotWrite o k w v => Sys2Proof.Machine.execKeySlotWrite o k w v s
  | .zero o k => Sys2Proof.Machine.execZero o k s
  | .erase o page => Sys2Proof.Machine.execErase o page s
  | .program o page => Sys2Proof.Machine.execProgram o page s
  | .nvRead o page => Sys2Proof.Machine.execNvRead o page s
  | .nvCommandDone => Sys2Proof.Machine.execNvCommandDone s
  | .clSelWrite o v => Sys2Proof.Machine.execClSelWrite o v s
  | .registerWrite o off v => Sys2Proof.Machine.execRegisterWrite o off v s
  | .porstNAssert => Sys2Proof.Machine.execPorstNAssert s
  | .porstNRelease => Sys2Proof.Machine.execPorstNRelease s
  | .wrstNAssert => Sys2Proof.Machine.execWrstNAssert s
  | .wrstNRelease => Sys2Proof.Machine.execWrstNRelease s
  | .wrst o => Sys2Proof.Machine.execWrst o s
  | .startupPhaseEnd => Sys2Proof.Machine.execStartupPhaseEnd s
  | .leave o => Sys2Proof.Machine.execLeave o s
  | .aononly o => Sys2Proof.Machine.execAononly o s
  | .aonWake cause => Sys2Proof.Machine.execAonWake cause s
  | .refloss => Sys2Proof.Machine.execRefloss s
  | .pllLock => Sys2Proof.Machine.execPllLock s
  | .churnWake n => Sys2Proof.Machine.execChurnWake n s
  | .churnWakeDone n => Sys2Proof.Machine.execChurnWakeDone n s
  | .laneGroupUp n lg => Sys2Proof.Machine.execLaneGroupUp n lg s
  | .churnIdle n => Sys2Proof.Machine.execChurnIdle n s
  | .churnSleep n => Sys2Proof.Machine.execChurnSleep n s
  | .off o n => Sys2Proof.Machine.execOff o n s
  | .hold o n v => Sys2Proof.Machine.execHold o n v s
  | .capWindow hubEst est temp => Sys2Proof.Machine.execCapWindow hubEst est temp s
  | .vdroop => Sys2Proof.Machine.execVdroop s
  | .vdroopEnd => Sys2Proof.Machine.execVdroopEnd s
  | .vddAonLow => Sys2Proof.Machine.execVddAonLow s
  | .modeRequest o v => Sys2Proof.Machine.execModeRequest o v s
  | .testEnter => Sys2Proof.Machine.execTestEnter s
  | .debugUnlock => Sys2Proof.Machine.execDebugUnlock s
  | .powerOn => Sys2Proof.Machine.execPowerOn s
  | .refclkReturn => Sys2Proof.Machine.execRefclkReturn s
  | .copOpComplete n id => Sys2Proof.Machine.execCopOpComplete n id s
  | .directorySweepEnd => Sys2Proof.Machine.execDirectorySweepEnd s

end Sys2Proof.Machine
end

