-- ==== Sys2Proof/Machine/Tick.lean ====
section
/-! DEFINITION. What passes with time when no command waits (log entry 1): one cycle of fclk, or of aclk while fclk is stopped. -/

namespace Sys2Proof.Machine

/-! ## Counters -/

/-- One tick of aclk (R354). -/
def aonTick (s : State) : State := { s with sys := { s.sys with aon := s.sys.aon + 1, sub := 0 } }

/-- What the hub does at an aon tick: the occupied deferred fetches are counted (R129), and a snapshot may fall due (R322). -/
def hubTick (s : State) : State := snapDue (plan (fun p => { p with defer := satAdd p.defer s.deferred.length }) s)

/-- fclk cycles in an aon tick: N of PLL_CFG, 80 where it is out of range (R351 to R353). -/
def tickCycles (s : State) : Nat := if badN s.sys.pll then 80 else fld s.sys.pll 7 0

/-- One cycle of fclk, and the aon tick that ends with it. -/
def clockCycle (s : State) : State :=
  let s := { s with sys := { s.sys with now := s.sys.now + 1, sub := s.sys.sub + 1 } }
  if s.sys.sub ≥ tickCycles s then hubTick (aonTick s) else s

/-- The plan counters of a cycle: PLAN_WAIT_CYC, and PLAN_FREE_MIN while the cellar has chunks (R129). -/
def planCycle (s : State) : State :=
  let w := s.sep.wait.toNat
  let s := plan (fun p => { p with wait := vset p.wait w (satAdd (vget 0 p.wait w) 1) }) s
  if s.hasCellar then noteFree s else s

/-- The counters of a cycle: CYC, PACE_LT and the plan counters (R108, R129, R259). -/
def countCycle (s : State) : State :=
  planCycle { s with
    sep := { s.sep with cyc := s.sep.cyc + 1 }
    paceCyc := if s.paceOn then satAdd s.paceCyc 1 else s.paceCyc }

/-! ## Lag (R264) -/

/-- Whether churn `n`'s part of task `t` waits on the window. -/
def windowWait (s : State) (t : Task) (n : Nat) : Bool :=
  match runAt s n t.id with
  | some o => (match o.units with | u :: _ => u.stage == 2 && !inWindow (ctxAt s t.op.desc.ctx) o (unitTile s o u) | [] => false)
  | none => false

/-- The churn with the lowest unsignalled tile of a task. -/
def lowestChurn (s : State) (t : Task) : Option Nat := (lowestOf (partTile s t) (maskList t.left)).map (·.1)

/-- Adds a cycle to OUT of the churn that holds up the oldest stream-out on a tiled OUT context. -/
def lagOut (s : State) (t : Task) : State :=
  let x := ctxAt s t.op.desc.ctx
  let first := (s.tasks.find? fun u => u.op.kind == .sout && u.op.desc.ctx == t.op.desc.ctx).map (·.id) == some t.id
  if t.op.kind != .sout || x.kind != 1 || x.tile == 0 || !first then s
  else
    match lowestChurn s t with
    | none => s
    | some n =>
      let waits := s.tasks.any fun u => u.op.kind == .sout && u.op.desc.ctx == t.op.desc.ctx
        && (maskList u.left).any fun m => m != n && windowWait s u m
      if waits then modChurn n (fun c => { c with lag := satFld c.lag 31 0 1 }) s else s

/-- Whether an IN write waits in churn `n`'s bridge while its op can take no more data. -/
def inLagging (s : State) (n : Nat) : Bool :=
  s.bridges.any fun c =>
    match c with
    | .inboundWrite m r => m.toNat == n && (match takerOp s n (fld r.addr 45 32) with | some o => opFull o | none => false)
    | _ => false

/-- Adds a cycle to IN of the churns whose producers wait. -/
def lagIn (s : State) (n : Nat) : State :=
  if inLagging s n then modChurn n (fun c => { c with lag := satFld c.lag 63 32 1 }) s else s

/-- CH_LAG in a cycle. -/
def countLag (s : State) : State :=
  let s := if s.tasks.isEmpty then s else s.tasks.foldl lagOut s
  if s.bridges.isEmpty then s else (List.range 32).foldl lagIn s

/-! ## Work -/

/-- The state a command leaves, or the present one. -/
def after (s : State) : Out → State
  | .next t => t
  | _ => s

/-- What the separator does in a cycle: the instruction that holds issue is tried again, or the next one is issued (R83, R85, R109). -/
def sepStep (s : State) : State :=
  match s.sep.held with
  | some i => after s (exec i s)
  | none =>
    match Sys2Proof.sepDecode (mget 0 s.imem s.sep.pc.toNat) with
    | some i => after s (exec i s)
    | none => takeTrap 0x14 none none false s

/-- The separator in a cycle. The cycle goes on after it, so FLT_STAT at its start stays noted (R376). -/
def sepCycle (s : State) : State := if s.sep.st != .running then s else { sepStep s with fltWas := s.fltWas }

/-- Every port. -/
def allPorts : List PortId :=
  (List.range 32).map mpP ++ (List.range 32).map fpP ++ [.hbp, .pp, .cp, .ccp]

/-- What the ports, the units and the channels still have to do. -/
def workCycle (s : State) : State :=
  let s := if s.txq.isEmpty then s else allPorts.foldl (fun s p => pumpAll p s) s
  finish (snapGo (moversGo (churnsGo (assignJobs 8 s))))

/-- Whether ring `k`'s ladle accesses the register at an offset next, for some `k`. -/
def ladleWants (s : State) (off : Option Nat) : Bool := off.isSome && (List.range 16).any fun r => ladleOff s r == off

/-- The place of a held request in R385: CP, HBP, then what is no access of a register, the image, and the wrapper. -/
def bridgeRank (c : Instr) : Nat := match cmdOrigin c with | some o => Origin.code o | none => 2

/-- Whether a held access of the image or the wrapper waits for a ladle that comes before it at its register (R385). -/
def afterLadle (s : State) (c : Instr) : Bool := decide (3 ≤ bridgeRank c) && ladleWants s ((cmdReg c).map Reg.off)

/-- The requests held in the bridges are tried again in the cycle that follows, each origin's in order (R26, R385). -/
def retryBridges (s : State) : State :=
  { s with
    bridges := s.bridges.filter (afterLadle s)
    pending := s.pending ++ (List.range 5).flatMap fun k => s.bridges.filter fun c => !afterLadle s c && bridgeRank c == k }

/-! ## The rings -/

/-- Whether the separator has an srel to issue. -/
def srelNext (s : State) : Bool :=
  s.sep.st == .running &&
    (match (match s.sep.held with | some i => some i | none => Sys2Proof.sepDecode (mget 0 s.imem s.sep.pc.toNat)) with
     | some (.srel ..) => true
     | _ => false)

/-- The part of a cycle in which ring `r`'s command goes on. 0: before all else, so that a bit set in the cycle stays set, a counter read
in it keeps the increment and a field written in it is then updated (R10, R130, R378, R386). 1: after the channels, for a write of CTL
(R234). 2: after the separator, for a write of MODE_CTL, which acts in the cycle that follows (R371), and for SEM, whose sum a read in the
cycle would see (R249). 3: not in this cycle, for a SEM that would meet an srel: no two counts reach a pair in one cycle. -/
def ringPart (s : State) (r : Nat) : Nat :=
  match cmdOpc (ringAt s r).cmd with
  | 3 => (match (ladleOff s r).bind regAt with | some (.chan _ 6) => 1 | some .modeCtl => 2 | _ => 0)
  | 6 => if srelNext s then 3 else 2
  | _ => 0

/-- The ring whose command goes on in a cycle: one each cycle, in turn, so that no two of them meet at a register (R10, R385). -/
def ringOf (s : State) : Nat := s.sys.now % 16

/-- Part `k` of the cycle that begins with `s0`, for its ring. -/
def ringTurn (k : Nat) (s0 s : State) : State := if ringPart s0 (ringOf s0) == k then cmdGo (ringOf s0) s else s

/-! ## The cycle -/

/-- A cycle of the block's units up to the separator. -/
def beforeSep (s : State) : State := ringTurn 1 s (workCycle (countLag (countCycle (clockCycle (ringTurn 0 s s)))))

/-- A cycle of fclk in a block that works. -/
def unitCycle (s : State) : State := retryBridges (ringTurn 2 s (sepCycle (beforeSep s)))

/-- What passes when no command waits: nothing without a clock, a tick of aclk without fclk, else a cycle of fclk. -/
def tick (s : State) : State :=
  if s.sys.cold || s.sys.aonLow || !s.sys.ref then s
  else if !fclkOn s then aonTick s
  else if inReset s then clockCycle s
  else if live s then settle (unitCycle s)
  else planCycle (clockCycle s)

end Sys2Proof.Machine
end

