-- ==== Sys2Proof/Safety.lean ====
section
/-! DEFINITION. What counts as a safe run, and the terms statements use: when an instruction issues, what it leaves, what forming
the interrupt requests changes, and the invariants. -/

namespace Sys2Proof.Machine

/-- The step did not stop: every command of the table has an effect, so a step that stops is a defect of the model. -/
def goesOn (o : Out) : Prop := ∃ t, o = .next t

/-- The outcome is a next state with property `P`. -/
def Ends (o : Out) (P : State → Prop) : Prop := ∃ t, o = .next t ∧ P t

/-- The guard of a separator instruction (R84); the other commands have none. -/
def guardOf : Instr → Option Guard
  | .nop g | .halt g | .trap g _ | .rdsr g _ _ | .wrsr g _ _ | .rte g | .add g _ _ _ | .sub g _ _ _
  | .and g _ _ _ | .or g _ _ _ | .xor g _ _ _ | .shl g _ _ _ | .shr g _ _ _ | .sra g _ _ _ | .min g _ _ _
  | .max g _ _ _ | .minu g _ _ _ | .maxu g _ _ _ | .mul g _ _ _ | .mulhu g _ _ _ | .divu g _ _ _ | .remu g _ _ _
  | .addi g _ _ _ | .andi g _ _ _ | .ori g _ _ _ | .xori g _ _ _ | .shli g _ _ _ | .shri g _ _ _ | .srai g _ _ _
  | .li g _ _ | .lih g _ _ | .ceq g _ _ _ | .cne g _ _ _ | .clt g _ _ _ | .cltu g _ _ _ | .cle g _ _ _
  | .cleu g _ _ _ | .pand g _ _ _ | .por g _ _ _ | .pxor g _ _ _ | .pandn g _ _ _ | .ld g _ _ _ | .st g _ _ _
  | .ldt g _ _ _ | .stt g _ _ _ | .tgetw g _ _ _ | .tsetw g _ _ _ | .br g _ | .call g _ | .ret g | .mkent g _
  | .mkdrop g _ | .dset g _ _ _ | .drd g _ _ _ | .spill g _ _ | .recall g _ | .drop g _ | .rel g _ | .stin g _ _
  | .stout g _ _ | .cop g _ _ | .upd g _ _ | .tkt g _ _ | .tkw g _ | .sacq g _ _ _ | .srel g _ _ _ | .fence g _
  | .lfence g | .hmv g _ _ | .hwt g _ _ | .epbeg g | .eprdy g _ | .epcmt g | .eprb g | .snap g => some g
  | _ => none

/-- The separator can issue instruction `i` now, it is legal, its guard holds, and it is not the last index of instruction memory
(R83 to R85, R91). -/
def Issues (i : Instr) (g : Guard) (s : State) : Prop :=
  canIssue i s = true ∧ wf i = true ∧ guardOk g s = true ∧ s.sep.pc ≠ 32767

/-- The end of an instruction that issued in state `s` and left `x`: the pc is the next index, and nothing holds issue. -/
def retired (s x : State) : State := settle (leaveIssue { x with sep := { x.sep with pc := s.sep.pc + 1 } })

/-- The end of an instruction that goes on at index `pc`. -/
def jumped (pc : BitVec 15) (x : State) : State := settle (leaveIssue { x with sep := { x.sep with pc := pc } })

/-- Instruction `i` holds issue with cause `c` in state `x`: pc unchanged (R85). -/
def holds (i : Instr) (c : Nat) (x : State) : State :=
  settle { x with sep := { x.sep with held := some i, wait := BitVec.ofNat 4 c } }

/-- Instruction `i` completes in state `s` and leaves `x` with the pc moved on. -/
def Retires (i : Instr) (s x : State) : Prop := exec i s = .next (retired s x)

/-- Instruction `i` holds issue in state `s` with cause `c`, in state `x`. -/
def Waits (i : Instr) (c : Nat) (s x : State) : Prop := exec i s = .next (holds i c x)

/-- Instruction `i` traps with fault `c`. -/
def Traps (i : Instr) (c : Nat) (info : Option (BitVec 32)) (e : Option Nat) (s : State) : Prop :=
  exec i s = .next (takeTrap c info e false s)

/-- Command `c` completes in state `s` and leaves `x`, with the interrupt requests formed afresh. -/
def Does (c : Instr) (s x : State) : Prop := exec c s = .next (settle x)

/-- A write of a register that is accepted: `x` is what it leaves, and the change log has the write if the register is logged. -/
def Writes (c : Instr) (o : Org) (r : Reg) (s x : State) : Prop := Does c s (logIf o r s x)

/-- `t` is `x` but for what forming the interrupt requests afresh may change: the requests, the held messages, the lines, FLT_STAT as it
is noted for the next cycle, and, when a message is sent, HBP's queue, credits and messages (R287, R288, R376, R381). -/
def Reports (x t : State) : Prop :=
  t = { x with
    irqReq := t.irqReq, irqPend := t.irqPend, irqOut := t.irqOut, fltWas := t.fltWas
    ports := t.ports, txq := t.txq, sent := t.sent }

/-- The interrupt requests and lines are those the sources and the registers give (R287, R381), unless fclk is stopped and the hub
holds its state (R353). -/
def wired (s : State) : Bool := !hubOn s || (s.irqReq == irqRequests s && s.irqOut == irqLines s s.irqReq)

/-- Every memory the manual gives the block is in its canonical form: addresses strictly rising, and nothing listed that an
unlisted address reads as. -/
def Memory.wf (s : State) : Bool := mwf 0 s.dmem && mwf 0 s.imem && mwf 0xFF s.nv.mem

/-- The table of what the registers store is in its canonical form. -/
def regsWf (s : State) : Bool := mwf 0 s.regs

/-- The tables that the manual's numbered state is kept in are in their canonical form. -/
def tablesWf (s : State) : Bool :=
  regsWf s && mwf {} s.dir && mwf {} s.pairs && mwf {} s.ctxs && mwf {} s.tickets && mwf 0 s.holds

/-! ## Terms of the statements -/

/-- Instruction `i` completes with a value that satisfies `P` in general register `d`. -/
def Puts (i : Instr) (g : Guard) (d : BitVec 6) (s : State) (P : Word → Prop) : Prop :=
  Issues i g s → ∃ v, Retires i s (gW d v s) ∧ P v

/-- Instruction `i` completes with predicate `d` set to whether `P` holds. -/
def Tests (i : Instr) (g : Guard) (d : BitVec 3) (s : State) (P : Prop) : Prop :=
  Issues i g s → ∃ b : Bool, Retires i s (pW d b s) ∧ (b = true ↔ P)

/-- The address of a memory instruction: a + sext(IMM), modulo 2⁶⁴ (R90). -/
def memAddr (s : State) (a : BitVec 6) (imm : Int) : Nat := (((gR s a).toNat + imm) % 2 ^ 64).toNat

/-- The eight bytes of data memory from an address on, as a number. -/
def dmNumber (s : State) (a : Nat) : Nat := (List.range 8).foldr (fun i n => (dmByte s (a + i)).toNat + 256 * n) 0

/-- The credits that an op of mask `m` takes (R22, R86). -/
def creditsTaken (m : BitVec 32) (s t : State) : Prop :=
  ∀ n, n < 32 → (churnAt t n).credit = if m.getLsbD n then (churnAt s n).credit - 1 else (churnAt s n).credit

/-- What an op placed in the queues of mask `m` does to the churns: one credit taken in every churn of the mask, one op on its way
there, and every other churn unchanged (R86). -/
def placed (m : BitVec 32) (s t : State) : Prop :=
  creditsTaken m s t ∧
  ∀ n, n < 32 → (m.getLsbD n = true → ∃ o, (churnAt t n).coming = (churnAt s n).coming ++ [o]) ∧
    (m.getLsbD n = false → churnAt t n = churnAt s n)

/-- What the start of op `o` of churn `n` leaves: started, refused or not, with the step sampled (R160). -/
def begun (n : Nat) (o : RunOp) (bad : Bool) (s : State) : State :=
  modRun n o.op.id (fun r => { r with started := true, refused := bad, step := s.step.step }) s

/-- A message of `d` data credits arrives at port `p` of a block that works, with its link up and credit for it (R38, R40). -/
def arrives (s : State) (p : PortId) (d : Nat) : Prop := live s = true ∧ linkOk s p = true ∧ hasRx s p d = true

/-- A message of request `c` cannot enter (R40, R48, R360): held in its bridge while fclk is stopped, lost with the link, dropped with
TAG_FAULT without credit. -/
def turnedAway (s : State) (p : PortId) (d : Nat) (c : Instr) : Prop :=
  (accepts s = true → fclkOn s = false → Does c s (holdStopped c s)) ∧
  (live s = true → linkOk s p = false → exec c s = .next s) ∧
  (live s = true → linkOk s p = true → hasRx s p d = false → ∃ x, Does c s x ∧ x.flt.getLsbD 0x13 = true ∧
    x = { s with flt := x.flt, flts := x.flts })

/-- A request of a stream context or a peer that enters, is well formed and waits for none before it. -/
def peerIn (s : State) (r : Req) (ops : List Nat) : Prop :=
  arrives s .pp (reqCredits r) ∧ ordered s .pp r.chip r.oc = false ∧ malformed ops r = false

end Sys2Proof.Machine
end

