-- ==== Sys2Proof/Certificates/Slice0/Obligations.lean ====
section
/-! DEFINITION. The statements about the block, one definition each. -/

open Sys2Proof Sys2Proof.Machine

/-! ## The step, the clock and reset -/

/-- The command at the front of the queue runs, on the state with the queue's rest. -/
def Obligations.StepRunsFront : Prop :=
  ∀ (c : Instr) (r : List Instr) (s : State), s.pending = c :: r → step s = exec c { s with pending := r }

/-- The model's choice (log entry 1): with no command waiting the block lets time pass. Nothing changes without a clock; without fclk
one tick of aclk passes; with fclk one cycle passes, and the aon counter moves on at every N-th (R351, R353, R354). In a cycle of a block
that works, the rest of the block acts first; then the RUNNING separator tries the instruction that holds issue again, or issues the one that
instruction memory holds at pc, or traps with ILLEGAL_OP where that word is no instruction (R83, R85, R109; log entries 1 and 4); last come
the commands of a ring that act at the end of the cycle, and the requests that wait in the bridges. -/
def Obligations.EmptyQueueTicks : Prop :=
  ∀ s : State, s.pending = [] →
    ((s.sys.cold = true ∨ s.sys.aonLow = true ∨ s.sys.ref = false) → step s = .next s) ∧
    (s.sys.cold = false → s.sys.aonLow = false → s.sys.ref = true → fclkOn s = false →
      Ends (step s) fun t => t.sys.aon = s.sys.aon + 1 ∧ t.sys.now = s.sys.now ∧ t.sep = s.sep ∧ t.churns = s.churns) ∧
    (s.sys.cold = false → s.sys.aonLow = false → fclkOn s = true → live s = false →
      Ends (step s) fun t => t.sys.now = s.sys.now + 1 ∧ t.sep = s.sep ∧ t.churns = s.churns ∧
        t.sys.aon = (if s.sys.sub + 1 ≥ (if 32 ≤ fld s.sys.pll 7 0 ∧ fld s.sys.pll 7 0 ≤ 88 then fld s.sys.pll 7 0 else 80)
          then s.sys.aon + 1 else s.sys.aon)) ∧
    (live s = true →
      let u := beforeSep s
      let ends (x : State) : Prop := step s = .next (settle (retryBridges (ringTurn 2 s { x with fltWas := u.fltWas })))
      (u.sep.st ≠ .running → ends u) ∧
      (u.sep.st = .running →
        (∀ i t, u.sep.held = some i → exec i u = .next t → ends t) ∧
        (∀ i t, u.sep.held = none → sepDecode (mget 0 u.imem u.sep.pc.toNat) = some i → exec i u = .next t → ends t) ∧
        (u.sep.held = none → sepDecode (mget 0 u.imem u.sep.pc.toNat) = none → ends (takeTrap 0x14 none none false u))))

/-- After cold reset: the separator's registers, memories and state (R80), the op queue credits (R22), the directory, contexts and
pairs, the mode, the links (R48), the rings and channels, the step, the faults, the interrupt lines (R364) and the registers of the map,
each at its reset value (R384). Those that the manual gives no value are the model's (log entry 8). -/
def Obligations.ColdResetValues : Prop :=
  let s := State.reset
  (∀ i, gR s i = 0) ∧ (∀ i, tR s i = {}) ∧ s.sep.p = 0 ∧ s.sep.pc = 0 ∧ s.sep.st = .halted ∧ s.sep.inh = false ∧
  s.sep.astat = 0 ∧ s.sep.layer = 0 ∧ (∀ i, mget 0 s.imem i = 0) ∧ (∀ a, dmByte s a = 0) ∧
  (∀ n, n < 32 → (churnAt s n).credit = 256 ∧ (churnAt s n).queue = [] ∧ (churnAt s n).pwr = .off) ∧
  (∀ e, entAt s e = {}) ∧ (∀ i, (ctxAt s i).st = .closed) ∧ (∀ p, pairAt s p = {}) ∧ (∀ i, (ticketAt s i).taken = false) ∧
  s.sys.mode = 0 ∧ s.sys.aon = 0 ∧ s.sys.phase = 0 ∧ (∀ p, linkOk s p = false) ∧
  (∀ r, r < 16 → (ringAt s r).st = .off) ∧ (∀ c, c < 64 → (vget {} s.hub c).st = .idle) ∧
  s.step.open_ = false ∧ s.step.step = 0 ∧ s.flt = 0 ∧ s.irqOut = 0 ∧ s.logTotal = 0 ∧ s.pending = [] ∧
  (∀ r : Reg, rd s r = (Reg.desc r).reset)

/-- No command of the table stops the machine. -/
def Obligations.EveryCommandCompletes : Prop := ∀ (c : Instr) (s : State), goesOn (exec c s)

/-! ## Interrupts -/

/-- The interrupt requests and lines follow the sources and their mapping, whatever command or tick comes (R287, R381). -/
def Obligations.StepKeepsInterruptsWired : Prop :=
  ∀ s t : State, wired s = true → step s = .next t → wired t = true

/-- They do so after reset. -/
def Obligations.ResetInterruptsWired : Prop := wired State.reset = true

/-- Forming the requests afresh changes the requests, what reports them and nothing else; it leaves every request what its sources
give, and drives the line of a request unless its MODE is 1; while fclk is stopped the hub holds all of them (R287, R353, R381). Request v
is 1 exactly when an active source that its IRQ_MAP field enables is mapped to v, and none is in reset (R288, R381); the sources that are
active are those of R380. A request that rises with MODE not 0 sends its message, behind those that wait, or sets PEND where MASK is 1 or
HBP's link is down; one that falls clears PEND; no other message goes out and no other PEND changes (R288). That MODE 0 sends and holds no
message is the model's reading (log entry 63). -/
def Obligations.FormingRequestsFrame : Prop :=
  ∀ s : State, Reports s (settle s) ∧ (hubOn s = false → settle s = s) ∧
    (hubOn s = true → (settle s).irqReq = irqRequests s ∧
      (∀ v, v < 8 → ((settle s).irqOut.getLsbD v = true ↔ (irqRequests s).getLsbD v = true ∧ irqMode s v ≠ 1)) ∧
      let rises (v : Nat) : Bool := (irqRequests s).getLsbD v && !s.irqReq.getLsbD v && irqMode s v != 0
      let shut (v : Nat) : Bool := bit (rd s (.irqMsgCtl v)) 2 || !linkOk s .hbp
      let out := ((List.range 8).filter fun v => rises v && !shut v).map (irqMessage s)
      (∀ v, v < 8 →
        (rises v = true → shut v = true → (settle s).irqPend.getLsbD v = true) ∧
        ((irqRequests s).getLsbD v = false → s.irqReq.getLsbD v = true → (settle s).irqPend.getLsbD v = false) ∧
        (((irqRequests s).getLsbD v = true → rises v = true → shut v = false) → ((irqRequests s).getLsbD v = false → s.irqReq.getLsbD v = false) →
          (settle s).irqPend.getLsbD v = s.irqPend.getLsbD v)) ∧
      ∃ k, (settle s).sent = s.sent ++ out.take k ∧ (settle s).txq.map (·.m) = s.txq.map (·.m) ++ out.drop k ∧
        (∀ m r, out = m :: r → s.txq.any (fun x => x.m.port == .hbp) = false → canDrive s m none = true → 0 < k) ∧
        (s.txq.any (fun x => x.m.port == .hbp) = true → out.take k = [])) ∧
    (∀ v, v < 8 → ((irqRequests s).getLsbD v = true ↔ inReset s = false ∧
      ∃ i, i < 64 ∧ (sources s).testBit i = true ∧ 8 ≤ irqField s i ∧ irqField s i % 8 = v)) ∧
    (∀ i, i < 64 → ((sources s).testBit i = true ↔
      (1 ≤ i ∧ i < 24 ∧ s.flt.getLsbD i = true) ∨ (24 ≤ i ∧ i < 40 ∧ (ringAt s (i - 24)).cdone = true) ∨
      (i = 40 ∧ ∃ c, c < 64 ∧ chanIrq (vget {} s.hub c) = true) ∨
      (i = 41 ∧ ∃ n, n < 32 ∧ (pailIrq s n = true ∨ s.sys.pailSum.getLsbD n = true)) ∨
      (i = 42 ∧ bit s.evt 0 = true) ∨ (43 ≤ i ∧ i < 46 ∧ s.sys.capEvt.getLsbD (i - 43) = true) ∨
      (i = 46 ∧ s.sys.refloss = true) ∨ (i = 47 ∧ s.sys.cfgerr = true) ∨ (i = 48 ∧ bit s.evt 1 = true) ∨
      (i = 49 ∧ ∃ n, n < 32 ∧ (churnAt s n).flags ≠ [])))

/-- While a reset is asserted the block accepts nothing: only the reset, supply and clock inputs, the link inputs, the wrapper and
the end of a command of the non-volatile store act (R365). -/
def Obligations.ResetAcceptsNothing : Prop :=
  ∀ (c : Instr) (s : State), inReset s = true →
    (match c with
      | .porstNAssert | .porstNRelease | .wrstNAssert | .wrstNRelease | .vddAonLow | .powerOn | .refloss | .refclkReturn
      | .pllLock | .vdroop | .vdroopEnd | .linkupRise _ | .linkupFall _ | .debugUnlock | .nvCommandDone => True
      | _ => exec c s = .next s)

/-! ## The separator: encoding, issue and guards -/

/-- Every instruction of the separator has an encoding, and no other command has one; decoding the encoding of a well-formed instruction
gives it back, for every operand. -/
def Obligations.DecodeOfEncode : Prop :=
  (∀ i : Instr, (sepEncode i).isSome = (guardOf i).isSome) ∧
  ∀ (i : Instr) (w : Word), wf i = true → sepEncode i = some w → sepDecode w = some i

/-- The two worked encodings of chapter 4, the nop that a cleared memory holds, and words written out field by field. -/
def Obligations.SampleWords : Prop :=
  sepDecode 0x142000A00C0000C0 = some (.ldt { pn := false, pr := 0 } 3 10 192) ∧
  sepDecode 0x441000500C000000 = some (.stout { pn := false, pr := 0 } 3 5) ∧
  sepDecode 0 = some (.nop { pn := false, pr := 0 }) ∧
  sepDecode 0x040A0420C0000000 = some (.add { pn := true, pr := 2 } 1 2 3) ∧
  sepDecode 0x18000000000001FF = some (.br { pn := false, pr := 0 } 511) ∧
  sepDecode 0x0060000000000000 = none ∧ sepDecode 0x0400042000000001 = none

/-- An instruction of the separator does nothing unless the separator can issue it (R85, R111); an illegal one traps with ILLEGAL_OP,
whatever its guard (R83); a legal one whose guard is 0 moves the pc on and has no other effect, whatever its operands, and traps at index
32,767 (R84, R91). -/
def Obligations.IssueRules : Prop :=
  ∀ (i : Instr) (g : Guard) (s : State), guardOf i = some g →
    (canIssue i s = false → exec i s = .next s) ∧
    (canIssue i s = true → wf i = false → Traps i 0x14 none none s) ∧
    (canIssue i s = true → wf i = true → guardOk g s = false →
      (s.sep.pc ≠ 32767 → Retires i s s) ∧ (s.sep.pc = 32767 → Traps i 0x14 none none s))

/-- The index rules of R91: br, call and ret, the ret that is out of range, and what every instruction, halt among them, that would go on past the last
index does. -/
def Obligations.IndexRules : Prop :=
  ∀ (s : State) (g : Guard) (d a b : BitVec 6) (q : BitVec 3) (imm : BitVec 36),
    (∀ tgt, canIssue (.br g tgt) s = true → guardOk g s = true → exec (.br g tgt) s = .next (jumped tgt s)) ∧
    (∀ tgt, canIssue (.call g tgt) s = true → guardOk g s = true →
      exec (.call g tgt) s = .next (jumped tgt (gW 63 (BitVec.ofNat 64 (s.sep.pc.toNat + 1)) s))) ∧
    (canIssue (.ret g) s = true → guardOk g s = true → (gR s 63).toNat < 32768 →
      exec (.ret g) s = .next (jumped (BitVec.ofNat 15 (gR s 63).toNat) s)) ∧
    (canIssue (.ret g) s = true → guardOk g s = true → 32768 ≤ (gR s 63).toNat → Traps (.ret g) 0x14 none none s) ∧
    (∀ (i : Instr) (body : State → SepRes) (x : State), canIssue i s = true → wf i = true → s.sep.pc = 32767 →
      (guardOk g s = false ∨ body s = .done x) → issue i g body s = .next (takeTrap 0x14 none none false s)) ∧
    (∀ i, i ∈ [Instr.nop g, .halt g, .add g d a b, .li g d imm, .ceq g q a b, .pand g q q q, .tgetw g d 0 0, .snap g] →
      canIssue i s = true → guardOk g s = true → s.sep.pc = 32767 → (i = .snap g → s.step.open_ = true) →
      Traps i 0x14 none none s)

/-- Taking a trap: SEP_TRAP holds its value, code, kind and pc; a fault's status bit is set, and a software trap's is not; then
the handler is entered with the faulting index in g62, or the separator is TRAPPED at the instruction (R109, R110). The read-backs that a
held fence asked for are void. -/
def Obligations.TakingATrap : Prop :=
  ∀ (s : State) (c : Nat) (info : BitVec 32) (e : Option Nat) (sw : Bool), c < 24 →
    let t := takeTrap c (some info) e sw s
    t.sep.trap = pack [(32, info.toNat), (16, c), (15, b1 sw), (0, s.sep.pc.toNat)] ∧
    (sw = true → t.flt = s.flt) ∧ (sw = false → t.flt.getLsbD c = true) ∧
    t.sep.held = none ∧ t.sep.wait = 0 ∧ (∀ b, b ∈ t.readback → b.ring = false → b.st = 0) ∧
    (bit (rd s .sepCtl) 3 = true → s.sep.inh = false →
      t.sep.inh = true ∧ t.sep.pc = BitVec.ofNat 15 (fld (rd s .sepCtl) 46 32) ∧ gR t 62 = s.sep.pc.setWidth 64 ∧
      (∀ i, i ≠ 62 → gR t i = gR s i)) ∧
    (bit (rd s .sepCtl) 3 = false ∨ s.sep.inh = true →
      t.sep.st = .trapped ∧ t.sep.pc = s.sep.pc ∧ t.sep.inh = s.sep.inh ∧ (∀ i, gR t i = gR s i)) ∧
    t.dmem = s.dmem ∧ t.imem = s.imem ∧ t.dir = s.dir ∧ t.churns = s.churns ∧ t.pairs = s.pairs ∧ t.tickets = s.tickets ∧
    t.sep.p = s.sep.p ∧ t.sep.t = s.sep.t ∧ t.sep.layer = s.sep.layer

/-! ## The separator: registers and scalar instructions -/

/-- g0 reads 0 and p0 reads 1, writes to them are discarded; call writes its return index to g63, and a trap taken to the handler
writes the faulting index to g62 (R81). -/
def Obligations.FixedRegisters : Prop :=
  ∀ s : State,
    (gR s 0 = 0 ∧ pR s 0 = true ∧ (∀ v, gW 0 v s = s) ∧ (∀ b, pW 0 b s = s)) ∧
    (∀ g tgt, canIssue (.call g tgt) s = true → guardOk g s = true →
      Ends (exec (.call g tgt) s) fun t => gR t 63 = BitVec.ofNat 64 (s.sep.pc.toNat + 1)) ∧
    (∀ c info e sw, bit (rd s .sepCtl) 3 = true → s.sep.inh = false →
      gR (takeTrap c info e sw s) 62 = BitVec.ofNat 64 s.sep.pc.toNat)

/-- The frame of an instruction that writes general register `d` or predicate `q`: it holds the value (g0 stays 0, p0 stays 1), every other
general register, predicate and descriptor, the special registers and the trap record, memory, the registers of the map, the directory,
pairs, contexts and churns are as before, and nothing else changes but the pc and the reports of interrupts. -/
def Obligations.RegisterWriteFrames : Prop :=
  ∀ (s : State) (d : BitVec 6) (v : Word) (q : BitVec 3) (b : Bool), let t := retired s (gW d v s); let u := retired s (pW q b s)
    gR t d = (if d = 0 then 0 else v) ∧ (∀ r, r ≠ d → gR t r = gR s r) ∧ t.sep.p = s.sep.p ∧
    pR u q = (if q = 0 then true else b) ∧ (∀ r, r ≠ q → pR u r = pR s r) ∧ u.sep.g = s.sep.g ∧
    ∀ x, x ∈ [t, u] → x.sep.pc = s.sep.pc + 1 ∧ x.sep.held = none ∧ x.sep.wait = 0 ∧ x.sep.t = s.sep.t ∧
      x.sep.inh = s.sep.inh ∧ x.sep.cyc = s.sep.cyc ∧ x.sep.layer = s.sep.layer ∧ x.sep.astat = s.sep.astat ∧ x.sep.trap = s.sep.trap ∧
      (∀ a, dmByte x a = dmByte s a) ∧ (∀ r, rd x r = rd s r) ∧ (∀ e, entAt x e = entAt s e) ∧ x.pairs = s.pairs ∧
      x.ctxs = s.ctxs ∧ x.churns = s.churns ∧ Reports { s with sep := x.sep } x

/-- The sixteen register forms of the scalar instructions (R89): results as numbers. -/
def Obligations.ScalarRegisterResults : Prop :=
  ∀ (s : State) (g : Guard) (d a b : BitVec 6), let x := gR s a; let y := gR s b
    Puts (.add g d a b) g d s (fun v => v.toNat = (x.toNat + y.toNat) % 2 ^ 64) ∧
    Puts (.sub g d a b) g d s (fun v => (v.toNat + y.toNat) % 2 ^ 64 = x.toNat) ∧
    Puts (.and g d a b) g d s (fun v => ∀ k, v.getLsbD k = (x.getLsbD k && y.getLsbD k)) ∧
    Puts (.or g d a b) g d s (fun v => ∀ k, v.getLsbD k = (x.getLsbD k || y.getLsbD k)) ∧
    Puts (.xor g d a b) g d s (fun v => ∀ k, v.getLsbD k = (x.getLsbD k != y.getLsbD k)) ∧
    Puts (.shl g d a b) g d s (fun v => v.toNat = x.toNat * 2 ^ (y.toNat % 64) % 2 ^ 64) ∧
    Puts (.shr g d a b) g d s (fun v => v.toNat = x.toNat / 2 ^ (y.toNat % 64)) ∧
    Puts (.sra g d a b) g d s (fun v => v.toInt = x.toInt / 2 ^ (y.toNat % 64)) ∧
    Puts (.min g d a b) g d s (fun v => v.toInt = Min.min x.toInt y.toInt) ∧
    Puts (.max g d a b) g d s (fun v => v.toInt = Max.max x.toInt y.toInt) ∧
    Puts (.minu g d a b) g d s (fun v => v.toNat = Min.min x.toNat y.toNat) ∧
    Puts (.maxu g d a b) g d s (fun v => v.toNat = Max.max x.toNat y.toNat) ∧
    Puts (.mul g d a b) g d s (fun v => v.toNat = x.toNat * y.toNat % 2 ^ 64) ∧
    Puts (.mulhu g d a b) g d s (fun v => v.toNat = x.toNat * y.toNat / 2 ^ 64) ∧
    Puts (.divu g d a b) g d s (fun v => v.toNat = if y.toNat = 0 then 2 ^ 64 - 1 else x.toNat / y.toNat) ∧
    Puts (.remu g d a b) g d s (fun v => v.toNat = if y.toNat = 0 then x.toNat else x.toNat % y.toNat)

/-- The immediate forms (R89): the immediate is a signed 36-bit number, a shift's amount its low six bits, lih's 28 bits fill bits
[63:36]. -/
def Obligations.ScalarImmediateResults : Prop :=
  ∀ (s : State) (g : Guard) (d a : BitVec 6) (imm : BitVec 36) (hi : BitVec 28), let x := gR s a
    let ib (k : Nat) : Bool := imm.getLsbD (Min.min k 35)
    Puts (.addi g d a imm) g d s (fun v => (v.toNat : Int) = (x.toNat + imm.toInt) % 2 ^ 64) ∧
    Puts (.andi g d a imm) g d s (fun v => ∀ k, k < 64 → v.getLsbD k = (x.getLsbD k && ib k)) ∧
    Puts (.ori g d a imm) g d s (fun v => ∀ k, k < 64 → v.getLsbD k = (x.getLsbD k || ib k)) ∧
    Puts (.xori g d a imm) g d s (fun v => ∀ k, k < 64 → v.getLsbD k = (x.getLsbD k != ib k)) ∧
    Puts (.shli g d a imm) g d s (fun v => v.toNat = x.toNat * 2 ^ (imm.toNat % 64) % 2 ^ 64) ∧
    Puts (.shri g d a imm) g d s (fun v => v.toNat = x.toNat / 2 ^ (imm.toNat % 64)) ∧
    Puts (.srai g d a imm) g d s (fun v => v.toInt = x.toInt / 2 ^ (imm.toNat % 64)) ∧
    Puts (.li g d imm) g d s (fun v => v.toInt = imm.toInt) ∧
    Puts (.lih g d hi) g d s (fun v => v.toNat = hi.toNat * 2 ^ 36 + (gR s d).toNat % 2 ^ 36)

/-- The compares and the predicate operations (R89). -/
def Obligations.CompareAndPredicateResults : Prop :=
  ∀ (s : State) (g : Guard) (d p q : BitVec 3) (a b : BitVec 6), let x := gR s a; let y := gR s b
    Tests (.ceq g d a b) g d s (x = y) ∧ Tests (.cne g d a b) g d s (x ≠ y) ∧
    Tests (.clt g d a b) g d s (x.toInt < y.toInt) ∧ Tests (.cltu g d a b) g d s (x.toNat < y.toNat) ∧
    Tests (.cle g d a b) g d s (x.toInt ≤ y.toInt) ∧ Tests (.cleu g d a b) g d s (x.toNat ≤ y.toNat) ∧
    Tests (.pand g d p q) g d s (pR s p = true ∧ pR s q = true) ∧
    Tests (.por g d p q) g d s (pR s p = true ∨ pR s q = true) ∧
    Tests (.pxor g d p q) g d s (pR s p ≠ pR s q) ∧
    Tests (.pandn g d p q) g d s (pR s p = true ∧ pR s q = false)

/-! ## The separator: memory -/

/-- Loads and descriptor words (R90): ld takes eight bytes, ldt 32, little-endian; tgetw and tsetw move one word; an address that is
misaligned or too high traps with it. -/
def Obligations.LoadsAndDescriptorWords : Prop :=
  ∀ (s : State) (g : Guard) (d a : BitVec 6) (t : BitVec 4) (w : BitVec 2) (imm : BitVec 36) (imt : BitVec 26),
    let ad := memAddr s a imm.toInt; let at_ := memAddr s a imt.toInt
    (ad % 8 = 0 → ad < 262144 → Puts (.ld g d a imm) g d s (fun v => v.toNat = dmNumber s ad)) ∧
    (¬(ad % 8 = 0 ∧ ad < 262144) → Issues (.ld g d a imm) g s → Traps (.ld g d a imm) 0x14 (some (BitVec.ofNat 32 ad)) none s) ∧
    (at_ % 32 = 0 → at_ < 262144 → Issues (.ldt g t a imt) g s → ∃ x : Desc, Retires (.ldt g t a imt) s (tW t x s) ∧
      x.w0.toNat = dmNumber s at_ ∧ x.w1.toNat = dmNumber s (at_ + 8) ∧ x.w2.toNat = dmNumber s (at_ + 16) ∧
      x.w3.toNat = dmNumber s (at_ + 24)) ∧
    (¬(at_ % 32 = 0 ∧ at_ < 262144) → Issues (.ldt g t a imt) g s →
      Traps (.ldt g t a imt) 0x14 (some (BitVec.ofNat 32 at_)) none s) ∧
    Puts (.tgetw g d t w) g d s (fun v => v = [(tR s t).w0, (tR s t).w1, (tR s t).w2, (tR s t).w3].getD w.toNat 0) ∧
    (Issues (.tsetw g t a w) g s → ∃ x : Desc, Retires (.tsetw g t a w) s (tW t x s) ∧
      ∀ k : BitVec 2, x.word k = if k = w then gR s a else (tR s t).word k)

/-- Stores (R90): with memory in its canonical form, st writes the eight bytes of gD and stt the 32 of tT at the address, every other
byte of data memory reads as before, the canonical form is kept, and nothing else changes; a bad address traps with it. -/
def Obligations.StoresAndTheirFrame : Prop :=
  ∀ (s : State) (g : Guard) (d a : BitVec 6) (t : BitVec 4) (imm : BitVec 36) (imt : BitVec 26), mwf 0 s.dmem = true →
    let ad := memAddr s a imm.toInt; let at_ := memAddr s a imt.toInt
    (ad % 8 = 0 → ad < 262144 → Issues (.st g d a imm) g s → ∃ m, Retires (.st g d a imm) s { s with dmem := m } ∧ mwf 0 m = true ∧
      (∀ k, k < 8 → (mget 0 m (ad + k)).toNat = (gR s d).toNat / 256 ^ k % 256) ∧
      ∀ q, (q < ad ∨ ad + 8 ≤ q) → mget 0 m q = dmByte s q) ∧
    (¬(ad % 8 = 0 ∧ ad < 262144) → Issues (.st g d a imm) g s → Traps (.st g d a imm) 0x14 (some (BitVec.ofNat 32 ad)) none s) ∧
    (at_ % 32 = 0 → at_ < 262144 → Issues (.stt g t a imt) g s → ∃ m, Retires (.stt g t a imt) s { s with dmem := m } ∧ mwf 0 m = true ∧
      (∀ k j, k < 8 → j < 4 → (mget 0 m (at_ + 8 * j + k)).toNat = ((tR s t).word (BitVec.ofNat 2 j)).toNat / 256 ^ k % 256) ∧
      ∀ q, (q < at_ ∨ at_ + 32 ≤ q) → mget 0 m q = dmByte s q) ∧
    (¬(at_ % 32 = 0 ∧ at_ < 262144) → Issues (.stt g t a imt) g s →
      Traps (.stt g t a imt) 0x14 (some (BitVec.ofNat 32 at_)) none s)

/-- The block's byte and word memories keep their canonical form in every step, from any state that has it, and reset has it; and so do the
tables that the state is kept in: the registers of the map, the directory, contexts, pairs, tickets and hold counts. So do, for the memories, the
operations that write them: stores, writes of data and instruction memory through control space, writes of bytes by movers and ladles, and
the non-volatile store's program, erase and loss. -/
def Obligations.MemoryFormKept : Prop :=
  Memory.wf State.reset = true ∧ tablesWf State.reset = true ∧
  (∀ s t : State, tablesWf s = true → step s = .next t → tablesWf t = true) ∧
  ∀ s : State, Memory.wf s = true → (∀ t, step s = .next t → Memory.wf t = true) ∧
    (∀ a l, Memory.wf (dmWrite a l s) = true) ∧ (∀ o i v, Memory.wf (dmemOp o i v s) = true) ∧
    (∀ o i v, Memory.wf (imemOp o i v s) = true) ∧ (∀ a l, Memory.wf (cspWrite a l s) = true) ∧
    (∀ l a, Memory.wf (nvPut l a s) = true) ∧ (∀ k, Memory.wf (nvErase k s) = true) ∧ Memory.wf (nvTear s) = true ∧
    Memory.wf (coldReset s) = true ∧ Memory.wf (settle s) = true

/-- Tables in canonical form read back what was written at the key and everything else as before, and keep their form. -/
def Obligations.TablesReadBack : Prop :=
  ∀ (m : SMap Word) (d v : Word) (k j : Nat), mwf d m = true →
    mget d (mset d m k v) k = v ∧ (j ≠ k → mget d (mset d m k v) j = mget d m j) ∧ mwf d (mset d m k v) = true

/-! ## The separator: system instructions -/

/-- nop, halt, rdsr, wrsr, trap and rte (R88, R108, R109): halt leaves the separator HALTED behind it; rdsr reads the special registers; wrsr
writes LAYER, or clears bits of ASTAT; trap takes the software trap with INFO := IMM[31:0]; rte goes on at g62 with INH 0, and traps where INH
is 0 already or g62 is out of range; the expiry of a held lfence's timeout traps with what is outstanding (R105). -/
def Obligations.SystemInstructions : Prop :=
  ∀ (s : State) (g : Guard) (d a : BitVec 6),
    (Issues (.nop g) g s → Retires (.nop g) s s) ∧
    (Issues (.halt g) g s → Ends (exec (.halt g) s) fun t => t.sep.st = .halted ∧ t.sep.pc = s.sep.pc + 1 ∧
      t = retired s { s with sep := { s.sep with st := .halted } }) ∧
    Puts (.rdsr g d 0) g d s (fun v => v = s.sys.aon.setWidth 64) ∧ Puts (.rdsr g d 1) g d s (fun v => v = s.sep.cyc) ∧
    Puts (.rdsr g d 2) g d s (fun v => v = s.sep.layer) ∧ Puts (.rdsr g d 3) g d s (fun v => v = s.step.step) ∧
    Puts (.rdsr g d 4) g d s (fun v => v = s.step.depoch.setWidth 64) ∧ Puts (.rdsr g d 5) g d s (fun v => v = s.sep.astat.setWidth 64) ∧
    Puts (.rdsr g d 6) g d s (fun v => v = rd s .chipId) ∧ Puts (.rdsr g d 7) g d s (fun v => v = s.sys.mode.setWidth 64) ∧
    Puts (.rdsr g d 8) g d s (fun v => v = BitVec.ofNat 64 (qMin s)) ∧
    Puts (.rdsr g d 9) g d s (fun v => v = BitVec.ofNat 64 (ticketsFree s)) ∧
    (Issues (.wrsr g a 2) g s → Retires (.wrsr g a 2) s { s with sep := { s.sep with layer := gR s a } }) ∧
    (Issues (.wrsr g a 5) g s → ∃ x, Retires (.wrsr g a 5) s { s with sep := { s.sep with astat := x } } ∧
      ∀ k, k < 5 → x.getLsbD k = (s.sep.astat.getLsbD k && !(gR s a).getLsbD k)) ∧
    (∀ imm, Issues (.trap g imm) g s → exec (.trap g imm) s = .next (takeTrap 0 (some (imm.setWidth 32)) none true s)) ∧
    (canIssue (.rte g) s = true → guardOk g s = true → s.sep.inh = true → (gR s 62).toNat < 32768 →
      exec (.rte g) s = .next (jumped (BitVec.ofNat 15 (gR s 62).toNat) { s with sep := { s.sep with inh := false } })) ∧
    (canIssue (.rte g) s = true → guardOk g s = true → (s.sep.inh = false ∨ 32768 ≤ (gR s 62).toNat) →
      Traps (.rte g) 0x14 none none s) ∧
    (live s = true → s.sep.held = some (.lfence g) → s.sep.st = .running → s.sep.lfTmo ≠ 0 →
      Does .lfenceTimeout s (takeTrap 0x16 (some (BitVec.ofNat 32 (outstanding s))) none false s)) ∧
    (live s = true → s.sep.lfTmo = 0 → Does .lfenceTimeout s s)

/-! ## The separator: the directory -/

/-- mkent and mkdrop (R94, R65): what may be created; the entry that is created, its fields as the descriptor gives them and its map
where the first free run of pages is; the traps; and the wait for map pages with CELLAR_FULL raised once, during which the checks and the
length stand as first taken. The length of a low-rank tensor whose context declares rank 0 is open (log entry 76), and taking it moves the
counter of the free values. -/
def Obligations.EntryCreation : Prop :=
  ∀ (s : State) (g : Guard) (t : BitVec 4), let D := tR s t; let e := D.entry
    let k := fmtK D.fmt (ctxAt s D.ctx).rank
    let made (len p : Nat) (x : Entry) : Prop := x.st = .filling ∧ x.fmt = BitVec.ofNat 4 D.fmt ∧ x.cur = x.fmt ∧
      x.floor = BitVec.ofNat 4 D.floorFmt ∧ x.lsl = D.lsl ∧ x.pin = D.pin ∧ x.recipe = BitVec.ofNat 16 D.recipe ∧
      x.need = BitVec.ofNat 32 D.need ∧ x.layer = BitVec.ofNat 16 D.layer ∧ x.mapLen = BitVec.ofNat 24 len ∧
      x.mapBase = BitVec.ofNat 18 p ∧ x.sectors = 0 ∧ x.refs = 0 ∧ x.epoch = s.step.depoch ∧ x.chmask = D.chmask ∧
      x.swt = BitVec.ofNat 4 D.swt
    (canCreate s D = true ↔ (entAt s e).st = .free ∧ D.chmask ≠ 0 ∧ D.fmt < 13 ∧ dealSeq s D.chmask D.swt ≠ [] ∧
      descLen s D ≤ 16777215) ∧
    (k ≠ 0 → descLen s D = mapLen s D.chmask D.swt D.nblk k) ∧
    (Issues (.mkent g t) g s → s.sep.mapStall = none →
      (s.step.sweep = true → Waits (.mkent g t) 0xD s s) ∧
      (s.step.sweep = false → canCreate s D = false → Traps (.mkent g t) 0x14 (some (BitVec.ofNat 32 e)) (some e) s) ∧
      (∀ p, s.step.sweep = false → canCreate s D = true → mapAlloc s (descLen s D) = some p →
        ∃ f x, Retires (.mkent g t) s (setEnt { s with freeCtr := f } e x) ∧ (k ≠ 0 → f = s.freeCtr) ∧ made (descLen s D) p x) ∧
      (s.step.sweep = false → canCreate s D = true → mapAlloc s (descLen s D) = none →
        ∃ x, Waits (.mkent g t) 3 s x ∧ x.flt.getLsbD 8 = true ∧ x.sep.mapStall = some (descLen s D) ∧ x.dir = s.dir)) ∧
    (∀ len, Issues (.mkent g t) g s → s.sep.mapStall = some len →
      (∀ p, mapAlloc s len = some p → ∃ x, Retires (.mkent g t) s (setEnt s e x) ∧ made len p x) ∧
      (mapAlloc s len = none → Waits (.mkent g t) 3 s s)) ∧
    (Issues (.mkdrop g t) g s →
      (s.step.sweep = true → Waits (.mkdrop g t) 0xD s s) ∧
      (s.step.sweep = false → (canCreate s D = false ∨ D.recipe = 0) →
        Traps (.mkdrop g t) 0x14 (some (BitVec.ofNat 32 e)) (some e) s) ∧
      (s.step.sweep = false → canCreate s D = true → D.recipe ≠ 0 →
        ∃ f x, Retires (.mkdrop g t) s (setEnt { s with freeCtr := f } e x) ∧ (k ≠ 0 → f = s.freeCtr) ∧ x.st = .dropped ∧
          x.mapLen = 0 ∧ x.mapBase = 0 ∧ x.recipe = BitVec.ofNat 16 D.recipe ∧ x.fmt = BitVec.ofNat 4 D.fmt ∧ x.refs = 0))

/-- The instructions that name an entry in a register trap with ILLEGAL_OP for an index past the last one, and with DIR_MISS naming
the entry where it is FREE (R93). dset changes one field of an entry, from the low bits of gB, and nothing else; drd copies a word of it
(R95, R96). -/
def Obligations.DirectoryFields : Prop :=
  ∀ (s : State) (g : Guard) (d a b : BitVec 6) (p : BitVec 3) (x : BitVec 3) (w : BitVec 2),
    let e := (gR s a).toNat; let y := entAt s e; let v := gR s b
    (∀ i, i ∈ [Instr.dset g a b x, .drd g d a w, .spill g p a, .recall g a, .drop g a, .rel g a] → Issues i g s →
      (131072 ≤ e → Traps i 0x14 (some ((gR s a).setWidth 32)) none s) ∧
      (e < 131072 → y.st = .free → Traps i 7 (some (BitVec.ofNat 32 e)) (some e) s)) ∧
    (e < 131072 → y.st ≠ .free →
      (Puts (.drd g d a w) g d s fun u => u = entWord y w.toNat) ∧
      (Issues (.dset g a b x) g s →
        (y.st = .released ∨ (x = 1 ∧ y.st = .dropped ∧ fld v 15 0 = 0) →
          Traps (.dset g a b x) 0x14 (some (BitVec.ofNat 32 e)) (some e) s) ∧
        (y.st ≠ .released → ¬(x = 1 ∧ y.st = .dropped ∧ fld v 15 0 = 0) →
          (x = 0 → Retires (.dset g a b x) s (setEnt s e { y with need := v.setWidth 32 })) ∧
          (x = 1 → Retires (.dset g a b x) s (setEnt s e { y with recipe := v.setWidth 16 })) ∧
          (x = 2 → Retires (.dset g a b x) s (setEnt s e { y with pin := v.getLsbD 0 })) ∧
          (x = 3 → Retires (.dset g a b x) s (setEnt s e { y with floor := v.setWidth 4 })) ∧
          (x = 4 → Retires (.dset g a b x) s (setEnt s e { y with layer := v.setWidth 16 })))))

/-- spill, recall, drop and rel by the entry's state (R65, R97). -/
def Obligations.DirectoryMoves : Prop :=
  ∀ (s : State) (g : Guard) (p : BitVec 3) (a : BitVec 6), let e := (gR s a).toNat; let y := entAt s e
    let bad (i : Instr) : Prop := Traps i 0x14 (some (BitVec.ofNat 32 e)) (some e) s
    e < 131072 → y.st ≠ .free →
    (Issues (.spill g p a) g s →
      (y.st ≠ .resident → bad (.spill g p a)) ∧
      (y.st = .resident → y.refs ≠ 0 → Waits (.spill g p a) 4 s s) ∧
      (y.st = .resident → y.refs = 0 → (coldAlloc s (extentUnits s e)).isNone = true →
        Retires (.spill g p a) s (pW p false (cellarFull 1 (some e) s))) ∧
      (y.st = .resident → y.refs = 0 → (coldAlloc s (extentUnits s e)).isSome = true →
        Retires (.spill g p a) s (pW p true (assignJobs 8 (startSpill e false s))))) ∧
    (Issues (.recall g a) g s →
      (y.st = .spilled → y.refs = 255 → Waits (.recall g a) 4 s s) ∧
      (y.st = .spilled → y.refs ≠ 255 → Retires (.recall g a) s (startRecall true e s)) ∧
      (y.st = .resident ∨ y.st = .recalling → Retires (.recall g a) s s) ∧
      (y.st = .filling ∨ y.st = .spilling ∨ y.st = .dropped ∨ y.st = .released → bad (.recall g a))) ∧
    (Issues (.drop g a) g s →
      (y.st ≠ .resident ∨ y.recipe = 0 → bad (.drop g a)) ∧
      (y.st = .resident → y.recipe ≠ 0 → y.refs ≠ 0 → Waits (.drop g a) 4 s s) ∧
      (y.st = .resident → y.recipe ≠ 0 → y.refs = 0 → Retires (.drop g a) s (dropEntry e s))) ∧
    (Issues (.rel g a) g s →
      (y.st = .filling ∨ y.st = .released ∨ hasDeferred s e = true → bad (.rel g a)) ∧
      (y.st ≠ .filling → y.st ≠ .released → hasDeferred s e = false → Retires (.rel g a) s (releaseEntry e s)))

/-- What the moves of an entry leave in it (R63, R64, R70, R97): a spill and a recall of an instruction each take a reference, and the
recall of a fetch takes none; a drop gives its storage up; rel leaves it RELEASED, or FREE where nothing refers to it, with its storage
returned: its cold extent is free and every chunk of it is marked, while a spill or recall in progress stops first. No other entry changes.
The directory is in its canonical form. -/
def Obligations.EntryAfterMove : Prop :=
  ∀ (s : State) (e f : Nat) (o : Nat), mwf ({} : Entry) s.dir = true → let y := entAt s e
    (coldAlloc s (extentUnits s e) = some o →
      entAt (startSpill e false s) e = { y with st := .spilling, cold := BitVec.ofNat 36 o, refs := y.refs + 1 } ∧
      (startSpill e false s).sysWait = s.sysWait ++ [.spill e false]) ∧
    entAt (startRecall true e s) e = { y with st := .recalling, recRef := true, refs := y.refs + 1 } ∧
    entAt (startRecall false e s) e = { y with st := .recalling, recRef := false } ∧
    entAt (dropEntry e s) e = { y with st := .dropped, sectors := 0, cold := 0 } ∧
    (f ≠ e → entAt (startSpill e false s) f = entAt s f ∧ (∀ b, entAt (startRecall b e s) f = entAt s f) ∧
      entAt (dropEntry e s) f = entAt s f) ∧
    mwf ({} : Entry) (startSpill e false s).dir = true ∧ (∀ b, mwf ({} : Entry) (startRecall b e s).dir = true) ∧
    mwf ({} : Entry) (dropEntry e s).dir = true ∧
    (y.st ≠ .spilling → y.st ≠ .recalling → reencOf s e = none → let x := releaseEntry e s
      entAt x e = (if y.refs = 0 then {} else { y with st := .released, sectors := 0, cold := 0 }) ∧
      (f ≠ e → entAt x f = entAt s f) ∧ mwf ({} : Entry) x.dir = true ∧
      x.cold = (if hasCold y then mdel s.cold y.cold.toNat else s.cold) ∧
      ∀ n, n < 32 → ∀ k c, (k, c) ∈ (churnAt x n).chunks → c.e = e → c.marked = true) ∧
    (∀ i, (y.st = .spilling ∨ y.st = .recalling) → reencOf s e = none →
      jobOn s (fun j => match j with | .spill f _ | .recall f => f == e | _ => false) = some i → (chanAt s i).st = .active →
      let x := releaseEntry e s
      entAt x e = { y with st := .released, sectors := 0 } ∧ (f ≠ e → entAt x f = entAt s f) ∧
      chanAt x i = { chanAt s i with st := .aborting } ∧ x.cold = s.cold)

/-! ## The separator: work for the churns -/

/-- stin (R63, R86, R98, its context and stripe checks R242): its traps and waits; else the entry gains a reference and the mark of a stin,
and every churn of the mask gets an op. That REFS = 255 shows before missing credits is the model's order (log entry 43). -/
def Obligations.StreamInIssue : Prop :=
  ∀ (s : State) (g : Guard) (t : BitVec 4) (a : BitVec 6), let D := tR s t; let e := D.entry; let y := entAt s e
    Issues (.stin g t a) g s →
    (y.st = .free → Traps (.stin g t a) 7 (some (BitVec.ofNat 32 e)) (some e) s) ∧
    (y.st ≠ .free → stinOk s D = false → Traps (.stin g t a) 0x14 (some (BitVec.ofNat 32 e)) (some e) s) ∧
    (stinOk s D = true → y.refs = 255 → Waits (.stin g t a) 4 s s) ∧
    (stinOk s D = true → y.refs ≠ 255 → creditsAll s D.chmask = false → Waits (.stin g t a) 2 s s) ∧
    (stinOk s D = true → y.refs ≠ 255 → creditsAll s D.chmask = true → ∃ x, Retires (.stin g t a) s x ∧
      placed D.chmask s x ∧ x.nextId = s.nextId + 1 ∧
      (∃ z, x.dir = (setEnt s e z).dir ∧ z.refs = y.refs + 1 ∧ z.stin = true ∧ z.st = y.st) ∧
      (∃ k, x.tasks = s.tasks ++ [k] ∧ k.left = D.chmask ∧ k.op.kind = .sin ∧ k.op.fmt = y.fmt ∧ k.op.lsl = y.lsl ∧
        k.op.ga = gR s a)) ∧
    (stinOk s D = true ↔ y.st = .filling ∧ y.stin = false ∧ (ctxAt s D.ctx).st = .opened ∧ (ctxAt s D.ctx).kind = 0 ∧
      D.chmask = y.chmask ∧ D.swt = y.swt.toNat)

/-- stout by the entry's state (R63, R86, R99, R119): traps, waits, a ticket for a DROPPED entry, ops at once for a RESIDENT or SPILLING
one, a deferred fetch for one that is SPILLED, RECALLING or under re-encode. Both kinds of fetch give the entry a reference; a deferred
fetch of a SPILLED entry also starts its recall, which takes none. The model's: the order in which the causes of a wait show (log entry 43),
that a CCP link that is down holds a ticket back as missing credits do (log entry 34), and that the context of a stout is checked for a
DROPPED entry too (log entry 23). -/
def Obligations.StreamOutIssue : Prop :=
  ∀ (s : State) (g : Guard) (t : BitVec 4) (a : BitVec 6), let i : Instr := .stout g t a
    let D := tR s t; let e := D.entry; let y := entAt s e
    let defer := y.st == .spilled || y.st == .recalling || reencoding s e
    Issues i g s →
    (y.st = .free → Traps i 7 (some (BitVec.ofNat 32 e)) (some e) s) ∧
    (y.st = .filling ∨ y.st = .released → Traps i 0x14 (some (BitVec.ofNat 32 e)) (some e) s) ∧
    (y.st = .dropped → stoutCtxOk s D = false → Traps i 0x14 (some (BitVec.ofNat 32 e)) (some e) s) ∧
    (y.st = .dropped → stoutCtxOk s D = true →
      (freeSlot s = none → Waits i 6 s s) ∧
      (∀ k, freeSlot s = some k → ccpReady s = false → Waits i 0xC s s) ∧
      (∀ k, freeSlot s = some k → ccpReady s = true →
        Retires i s (sendTicket k e y.recipe.toNat y.layer.toNat D true (gR s a) s))) ∧
    (y.st = .resident ∨ y.st = .spilling ∨ y.st = .spilled ∨ y.st = .recalling →
      (stoutOk s D = false → Traps i 0x14 (some (BitVec.ofNat 32 e)) (some e) s) ∧
      (stoutOk s D = true → y.refs = 255 → Waits i 4 s s) ∧
      (stoutOk s D = true → y.refs ≠ 255 → creditsAll s D.chmask = false → Waits i 2 s s) ∧
      (stoutOk s D = true → y.refs ≠ 255 → creditsAll s D.chmask = true → defer = false → ∃ x, Retires i s x ∧
        placed D.chmask s x ∧ x.nextId = s.nextId + 1 ∧ x.deferred = s.deferred ∧
        (∃ z, x.dir = (setEnt s e z).dir ∧ z = { y with refs := y.refs + 1 }) ∧
        (∃ k, x.tasks = s.tasks ++ [k] ∧ k.left = D.chmask ∧ k.op.kind = .sout ∧ k.deadline = (gR s a).toNat)) ∧
      (stoutOk s D = true → y.refs ≠ 255 → creditsAll s D.chmask = true → defer = true → freeDefer s = none →
        Waits i 0xB s s) ∧
      (∀ k, stoutOk s D = true → y.refs ≠ 255 → creditsAll s D.chmask = true → defer = true → freeDefer s = some k →
        ∃ x, Retires i s x ∧ creditsTaken D.chmask s x ∧
          (∃ d, x.deferred = mset ({} : Deferred) s.deferred k d ∧ d.entry = e ∧ d.failed = false ∧ d.op.id = s.nextId) ∧
          (y.st ≠ .spilled → x.dir = (setEnt s e { y with refs := y.refs + 1 }).dir) ∧
          (y.st = .spilled → ∃ z, x = bumpCel 4 (startRecall false e z) ∧ z.sysWait = s.sysWait ∧
            z.dir = (setEnt s e { y with refs := y.refs + 1 }).dir) ∧
          ∀ n, n < 32 → (churnAt x n).coming = (churnAt s n).coming))

/-- cop and upd (R86, R100, R101, R294): no churn named, or contexts and regions that do not fit, trap; they wait for credits; else every
churn of the mask gets an op and the directory is untouched. -/
def Obligations.ChurnOpIssue : Prop :=
  ∀ (s : State) (g : Guard) (t : BitVec 4) (a : BitVec 6), let D := tR s t
    (Issues (.cop g t a) g s →
      (D.chmask = 0 ∨ copOk s D (gR s a) = false → Traps (.cop g t a) 0x14 none none s) ∧
      (D.chmask ≠ 0 → copOk s D (gR s a) = true → creditsAll s D.chmask = false → Waits (.cop g t a) 2 s s) ∧
      (D.chmask ≠ 0 → copOk s D (gR s a) = true → creditsAll s D.chmask = true → ∃ x, Retires (.cop g t a) s x ∧
        placed D.chmask s x ∧ x.dir = s.dir ∧
        (∃ k, x.tasks = s.tasks ++ [k] ∧ k.left = D.chmask ∧ k.op.kind = .cop ∧ k.op.ga = gR s a))) ∧
    (Issues (.upd g t a) g s →
      (updOk s D = false → Traps (.upd g t a) 0x14 none none s) ∧
      (updOk s D = true → creditsAll s D.chmask = false → Waits (.upd g t a) 2 s s) ∧
      (updOk s D = true → creditsAll s D.chmask = true → ∃ x, Retires (.upd g t a) s x ∧
        placed D.chmask s x ∧ x.dir = s.dir ∧
        (∃ k, x.tasks = s.tasks ++ [k] ∧ k.left = D.chmask ∧ k.op.kind = .upd ∧ k.op.ga = gR s a)))

/-! ## The separator: tickets, semaphores, fences, movers and the step -/

/-- tkt sends a TICKET in the lowest free slot under its next sequence and writes the number to gD; tkw waits while that slot is taken
under that sequence (R86, R102). The model's: a missing slot shows before missing CCP credits (log entry 43), and a CCP link that is down
counts as missing credits (log entry 34). -/
def Obligations.Tickets : Prop :=
  ∀ (s : State) (g : Guard) (d a : BitVec 6) (t : BitVec 4), let D := tR s t
    (Issues (.tkt g d t) g s →
      (D.recipe = 0 → Traps (.tkt g d t) 0x14 (some (BitVec.ofNat 32 D.entry)) (some D.entry) s) ∧
      (D.recipe ≠ 0 → freeSlot s = none → Waits (.tkt g d t) 6 s s) ∧
      (∀ k, D.recipe ≠ 0 → freeSlot s = some k → ccpReady s = false → Waits (.tkt g d t) 0xC s s) ∧
      (∀ k, D.recipe ≠ 0 → freeSlot s = some k → ccpReady s = true → mwf ({} : Ticket) s.tickets = true →
        ∃ x, Retires (.tkt g d t) s (gW d (pack [(8, ((ticketAt s k).seq + 1).toNat), (0, k)]) x) ∧
          x = sendTicket k D.entry D.recipe D.layer D false 0 s ∧ (ticketAt x k).taken = true ∧
          (ticketAt x k).seq = (ticketAt s k).seq + 1 ∧ (∀ j, j ≠ k → ticketAt x j = ticketAt s j))) ∧
    (Issues (.tkw g a) g s → let k := ticketAt s (fld (gR s a) 7 0)
      (k.taken = true → k.seq.toNat = fld (gR s a) 15 8 → Waits (.tkw g a) 6 s s) ∧
      (k.taken = false ∨ k.seq.toNat ≠ fld (gR s a) 15 8 → Retires (.tkw g a) s s))

/-- sacq and srel (R103, R249): sacq waits until its counter holds the count and takes it; srel adds to the other side's counter,
and an overflow traps with the pair and side. That a context whose pair it is takes EMPTY within the command, where R249 has the end of the
cycle, is the model's (log entry 16). -/
def Obligations.Semaphores : Prop :=
  ∀ (s : State) (g : Guard) (a b : BitVec 6) (side : BitVec 1),
    let p := (gR s a).toNat; let n := (gR s b).toNat; let x := pairAt s p
    (p < 4096 → n < 65536 → Issues (.sacq g a b side) g s →
      (side = 0 → x.full.toNat < n → Waits (.sacq g a b side) 5 s s) ∧
      (side = 0 → n ≤ x.full.toNat →
        ∃ y, Retires (.sacq g a b side) s (setPair s p y) ∧ y.full.toNat = x.full.toNat - n ∧ y.empty = x.empty) ∧
      (side = 1 → (takerOf s p).isSome = true → Traps (.sacq g a b side) 0x14 none none s) ∧
      (side = 1 → (takerOf s p).isNone = true → x.empty.toNat < n → Waits (.sacq g a b side) 5 s s) ∧
      (side = 1 → (takerOf s p).isNone = true → n ≤ x.empty.toNat →
        ∃ y, Retires (.sacq g a b side) s (setPair s p y) ∧ y.empty.toNat = x.empty.toNat - n ∧ y.full = x.full)) ∧
    (p < 4096 → n < 65536 → Issues (.srel g a b side) g s →
      (side = 0 → x.empty.toNat + n ≤ 65535 →
        ∃ y, Retires (.srel g a b side) s (takeEmpty p (setPair s p y)) ∧ y.empty.toNat = x.empty.toNat + n ∧ y.full = x.full) ∧
      (side = 0 → 65535 < x.empty.toNat + n → Traps (.srel g a b side) 0x15 (some (BitVec.ofNat 32 (p + 4096))) none s) ∧
      (side = 1 → x.full.toNat + n ≤ 65535 →
        ∃ y, Retires (.srel g a b side) s (takeEmpty p (setPair s p y)) ∧ y.full.toNat = x.full.toNat + n ∧ y.empty = x.empty) ∧
      (side = 1 → 65535 < x.full.toNat + n → Traps (.srel g a b side) 0x15 (some (BitVec.ofNat 32 p)) none s)) ∧
    (4096 ≤ p ∨ 65536 ≤ n →
      (Issues (.sacq g a b side) g s → Traps (.sacq g a b side) 0x14 none none s) ∧
      (Issues (.srel g a b side) g s → Traps (.srel g a b side) 0x14 none none s))

/-- fence waits for the work of its scope, and lfence for all of it and for empty op queues; then LAYER counts (R104, R105). -/
def Obligations.Fences : Prop :=
  ∀ (s : State) (g : Guard),
    (Issues (.fence g 0) g s → (churnWork s = true → Waits (.fence g 0) 7 s s) ∧ (churnWork s = false → Retires (.fence g 0) s s)) ∧
    (Issues (.fence g 1) g s → (hubWork s = true → Waits (.fence g 1) 7 s s) ∧ (hubWork s = false → Retires (.fence g 1) s s)) ∧
    (Issues (.fence g 2) g s → (ticketWork s = true → Waits (.fence g 2) 7 s s) ∧ (ticketWork s = false → Retires (.fence g 2) s s)) ∧
    (Issues (.fence g 3) g s →
      (anyWork s = true → Waits (.fence g 3) 7 s s) ∧
      (anyWork s = false → readWork s = true → Waits (.fence g 3) 7 s (readBacks s)) ∧
      (anyWork s = false → readWork s = false →
        Retires (.fence g 3) s { s with readback := s.readback.filter (·.ring) })) ∧
    (Issues (.lfence g) g s →
      (anyWork s = false → readWork s = false → queuesEmpty s = true →
        Retires (.lfence g) s
          { s with readback := s.readback.filter (·.ring), sep := { s.sep with layer := s.sep.layer + 1 } }) ∧
      (anyWork s = true ∨ queuesEmpty s = false ∧ readWork s = false → s.sep.held = none →
        Waits (.lfence g) 8 s { s with sep := { s.sep with lfTmo := (rd s .lfTmo).setWidth 32 } }) ∧
      (anyWork s = true → s.sep.held = some (.lfence g) → Waits (.lfence g) 8 s s))

/-- hmv copies the descriptor into the channel, whose registers read its reserved bits as 0 (R9), and queues it; a channel that is busy holds issue, operands out of range and channels that
are not the separator's trap; hwt waits for the channel and tells whether its last transfer was without fault (R106, R213). -/
def Obligations.HubMoves : Prop :=
  ∀ (s : State) (g : Guard) (a b : BitVec 6) (p : BitVec 3),
    let c : ChanId := .hub ((gR s b).setWidth 6); let w (i : Nat) : Word := dmRead s ((gR s a).toNat + 8 * i)
    let h := chanAt s (.hub ((gR s a).setWidth 6))
    (Issues (.hmv g a b) g s →
      (64 ≤ (gR s b).toNat ∨ (gR s a).toNat % 64 ≠ 0 ∨ 262144 ≤ (gR s a).toNat ∨ isSystem c = true ∨ hostOwned s c = true →
        Traps (.hmv g a b) 0x14 none none s) ∧
      ((gR s b).toNat < 64 → (gR s a).toNat % 64 = 0 → (gR s a).toNat < 262144 → isSystem c = false → hostOwned s c = false →
        ((chanAt s c).st ≠ .idle → Waits (.hmv g a b) 9 s s) ∧
        ((chanAt s c).st = .idle → ∃ x, Retires (.hmv g a b) s x ∧ x.stamp = s.stamp + 1 ∧
          chanAt x c = { chanAt s c with
            sh := Dsc.stored ⟨w 0, w 1, w 2, w 3, w 4, w 5⟩, act := ⟨w 0, w 1, w 2, w 3, w 4, w 5⟩, x := {}
            job := .hmv (gR s a).toNat, runs := (chanAt s c).runs + 1, st := .queued, stamp := s.stamp } ∧
          (∀ k : BitVec 6, ChanId.hub k ≠ c → chanAt x (.hub k) = chanAt s (.hub k))))) ∧
    (Issues (.hwt g p a) g s →
      (h.st ≠ .idle → Waits (.hwt g p a) 9 s s) ∧
      (h.st = .idle → Retires (.hwt g p a) s (pW p (h.done && !h.flt && !h.abt) s)))

/-- epbeg also clears STEP_STAT, apart from its STEP field, which it sets to STEP[31:0]; it records SCHED_CNT[0] to SCHED_CNT[7] as the
step-start copy and clears the pending requests (R313). -/
def Obligations.StepOpening : Prop :=
  ∀ (s : State) (g : Guard), Issues (.epbeg g) g s → s.step.open_ = false →
    ∃ x, Retires (.epbeg g) s x ∧ x.step.statStep = s.step.step.setWidth 32 ∧
      stepStat x = pack [(32, s.step.step.toNat % 2 ^ 32)] ∧
      (∀ k, k < 8 → x.step.cntCopy.getD k 0 = (rd s (.schedCnt k)).setWidth 48) ∧ x.step.pcmt = false ∧ x.step.pabt = false

/-- The step instructions (R107, R307, R312, R314, R318, R319): they trap out of place; epbeg opens the step and moves the directory epoch
on; eprdy waits for the updates and tells whether the step is blocked; snap sets DUE; epcmt waits for its request, flips the epoch and
counts the schedules that were enabled at epbeg, with its snapshot flag once the block is quiet and the snapshot's control section is
issued, or rolls the step back; eprb waits for the program's work, sweeps, and closes the step, with DEPOCH and the schedule counts as they
were when it opened.
That the entries of the step are FREE as soon as the rollback ends, what still moves them answering to no entry any more, is the model's
(log entry 44). -/
def Obligations.StepInstructions : Prop :=
  ∀ (s : State) (g : Guard) (p : BitVec 3),
    let counted (x : State) : Prop := x.step.step = s.step.step + 1 ∧ x.step.open_ = false ∧
      (regsWf s = true → ∀ k, k < 8 → rd x (.schedCnt k) =
        if s.step.schEn.getLsbD k then (rd s (.schedCnt k) + 1) &&& 0xFFFFFFFFFFFF else rd s (.schedCnt k))
    let closed (x : State) : Prop := x.step.open_ = false ∧ x.step.depoch = s.step.start ∧ x.step.step = s.step.step ∧ x.step.pcmt = false ∧
      x.step.pabt = false ∧ (regsWf s = true → ∀ k, k < 8 → rd x (.schedCnt k) =
        if k < s.step.cntCopy.length then (s.step.cntCopy.getD k 0).setWidth 64 else rd s (.schedCnt k)) ∧
      (mwf ({} : Entry) s.dir = true → ∀ e, (entAt s e).st ≠ .free → (entAt s e).epoch = s.step.depoch → (entAt x e).st = .free)
    (Issues (.epbeg g) g s →
      (s.step.open_ = true → Traps (.epbeg g) 0x14 none none s) ∧
      (s.step.open_ = false → ∃ x, Retires (.epbeg g) s x ∧ x.step.open_ = true ∧ x.step.depoch = s.step.depoch + 1 ∧
        x.step.start = s.step.depoch ∧ x.step.sweep = true ∧ x.step.step = s.step.step ∧ x.sep.astat = s.sep.astat &&& 0xF)) ∧
    (Issues (.eprdy g p) g s →
      (s.step.open_ = false → Traps (.eprdy g p) 0x14 none none s) ∧
      (s.step.open_ = true → updWork s = true → Waits (.eprdy g p) 0xA s s) ∧
      (s.step.open_ = true → updWork s = false → s.step.blk = 0 → ∃ x, Retires (.eprdy g p) s (pW p true x) ∧
        x.step.ready = true ∧ x.step.lastRdy = true ∧ x.step.rdyIssued = true) ∧
      (s.step.open_ = true → updWork s = false → s.step.blk ≠ 0 → ∃ x, Retires (.eprdy g p) s (pW p false x) ∧
        x.step.ready = s.step.ready ∧ x.step.lastRdy = false ∧ x.step.latched = s.step.blk ∧ x.sent = s.sent)) ∧
    (Issues (.snap g) g s →
      (s.step.open_ = false → Traps (.snap g) 0x14 none none s) ∧
      (s.step.open_ = true → Retires (.snap g) s { s with step := { s.step with due := true } })) ∧
    (Issues (.epcmt g) g s → s.step.flipped = false →
      (s.step.open_ = false ∨ s.step.lastRdy = false → Traps (.epcmt g) 0x14 none none s) ∧
      (s.step.open_ = true → s.step.lastRdy = true → s.step.pabt = false → s.step.rolling = false →
        (s.step.pcmt = false ∨ holdsFree s = false ∨ s.snap.busy = true → Waits (.epcmt g) 0xA s s) ∧
        (s.step.pcmt = true → holdsFree s = true → s.snap.busy = false → s.step.snapFlag = false →
          ∃ x, Retires (.epcmt g) s x ∧ counted x ∧ x.dir = s.dir ∧ x.churns = s.churns) ∧
        (s.step.pcmt = true → holdsFree s = true → s.snap.busy = false → s.step.snapFlag = true →
          (anyWork s = true ∨ readWork s = false ∧ queuesEmpty s = false → Waits (.epcmt g) 0xA s s) ∧
          (anyWork s = false → readWork s = false → queuesEmpty s = true →
            let fits := withTags (areaCovered s) (ctlUnits + sectionUnits s) ≤ fld (rd s (.snapAsize (b1 s.snap.area))) 35 0
            (¬fits → ∃ x, Retires (.epcmt g) s x ∧ counted x ∧ x.snap.busy = false ∧ x.snap.err = 1 ∧ x.flt.getLsbD 0x14 = true ∧
              x.sent = s.sent) ∧
            (fits → ∃ y, counted y ∧ y.snap.busy = true ∧ y.snap.cur = s.snap.area ∧ y.snap.last = s.sys.aon ∧ y.snap.due = false ∧
              y.snap.ctl = ctlImage (flip (readDone s)) ∧ y.dir = s.dir ∧
              (ctlIssued (snapGo y) = true → Retires (.epcmt g) s (snapGo y)) ∧
              (ctlIssued (snapGo y) = false → Waits (.epcmt g) 0xA s { snapGo y with step := { (snapGo y).step with
                flipped := true, backs := s.readback.filter fun b => !b.ring } })))) ) ∧
      (s.step.open_ = true → s.step.lastRdy = true → s.step.pabt = true → s.step.rolling = false →
        churnWork s = false → hubWork s = false → s.step.sweep = false →
        Waits (.epcmt g) 0xA s { s with step := { s.step with sweep := true, rolling := true } }) ∧
      (s.step.open_ = true → s.step.lastRdy = true → s.step.rolling = true → s.step.sweep = false →
        ∃ x, Retires (.epcmt g) s x ∧ closed x)) ∧
    (Issues (.epcmt g) g s → s.step.flipped = true → let x := snapGo s
      (ctlIssued x = true → Retires (.epcmt g) s { x with step := { x.step with flipped := false, backs := [] } }) ∧
      (ctlIssued x = false → Waits (.epcmt g) 0xA s x)) ∧
    (Issues (.eprb g) g s →
      (s.step.open_ = false → Traps (.eprb g) 0x14 none none s) ∧
      (s.step.open_ = true → s.step.rolling = false → churnWork s = false → hubWork s = false → s.step.sweep = false →
        Waits (.eprb g) 0xA s { s with step := { s.step with sweep := true, rolling := true } }) ∧
      (s.step.open_ = true → s.step.rolling = true → s.step.sweep = true → Waits (.eprb g) 0xA s s) ∧
      (s.step.open_ = true → s.step.rolling = false → (churnWork s = true ∨ hubWork s = true ∨ s.step.sweep = true) →
        Waits (.eprb g) 0xA s s) ∧
      (s.step.open_ = true → s.step.rolling = true → s.step.sweep = false → ∃ x, Retires (.eprb g) s x ∧ closed x)) ∧
    (live s = true → Does .directorySweepEnd s { s with step := { s.step with sweep := false } })

/-! ## The separator: control and memories -/

/-- START and STEP leave HALTED or TRAPPED and issue from pc, STEP for one instruction; CYC counts from HALTED; TVEC and TVEC_EN are
written. STOP abandons the instruction that holds issue and leaves the separator HALTED at it; what it takes back of an epcmt that has
flipped the epoch is the model's (log entry 77). A STEP or a write of SEP_PC while it runs is
ignored, raises ILLEGAL_OP and is recorded by the change log; SEP_PC is written outside RUNNING (R111). -/
def Obligations.SeparatorControl : Prop :=
  ∀ (s : State) (o : Org) (v : Word), live s = true → mwf 0 s.regs = true →
    let m : Word := (Reg.desc .sepCtl).rw &&& sizeMask o.size
    let ctl (k : Nat) : Word := (setFld v 2 0 k &&& m) ||| (rd s .sepCtl &&& ~~~ m)
    let keep (t : State) (k : Nat) : Prop := rd t .sepCtl = ctl k ∧ t.sep.pc = s.sep.pc ∧
      t.sep.st = .running ∧ t.sep.g = s.sep.g ∧ t.sep.t = s.sep.t ∧ t.sep.p = s.sep.p ∧ t.sep.inh = s.sep.inh ∧
      t.sep.cyc = (if s.sep.st = .halted then 0 else s.sep.cyc)
    (o.size ≠ .high →
      (s.sep.st ≠ .running →
        (∃ x, Writes (.sepCtlStart o v) o .sepCtl s x ∧ keep x 1 ∧ x.sep.stepping = s.sep.stepping) ∧
        (∃ x, Writes (.sepCtlStep o v) o .sepCtl s x ∧ keep x 4 ∧ x.sep.stepping = true)) ∧
      (∃ x, Writes (.sepCtlStop o v) o .sepCtl s x ∧ x.sep.st = .halted ∧ x.sep.held = none ∧ x.sep.wait = 0 ∧ x.sep.pc = s.sep.pc ∧
        x.dir = s.dir ∧ x.pairs = s.pairs ∧ x.churns = s.churns ∧ x.sep.g = s.sep.g ∧ x.sep.t = s.sep.t ∧ x.sep.p = s.sep.p ∧
        (∀ b, b ∈ x.readback → b.ring = false → b.st = 0) ∧
        (s.step.flipped = false → x.step = { s.step with rolling := false, sweep := s.step.sweep && !s.step.rolling }) ∧
        (s.step.flipped = true → x.step.open_ = true ∧ x.step.step = s.step.step - 1 ∧ x.snap.busy = false ∧
          ∀ b ∈ s.step.backs, { b with st := 0 } ∈ x.readback)) ∧
      (s.sep.st = .running → Writes (.sepCtlStart o v) o .sepCtl s (wr s .sepCtl (ctl 1)) ∧ ∃ x, Writes (.sepCtlStep o v) o .sepCtl s x ∧
        x.sep = s.sep ∧ x.regs = s.regs ∧ x.flt.getLsbD 0x14 = true ∧ x.logTotal = satAdd s.logTotal 1)) ∧
    (o.size = .high → ∀ c k, (c, k) ∈ [(Instr.sepCtlStart o v, 1), (.sepCtlStop o v, 2), (.sepCtlStep o v, 4)] →
      Writes c o .sepCtl s (wr s .sepCtl (ctl k))) ∧
    (s.sep.st ≠ .running → Writes (.sepPcWrite o v) o .sepPc s
      { s with sep := { s.sep with pc := if o.size = .high then s.sep.pc else v.setWidth 15 } }) ∧
    (s.sep.st = .running → ∃ x, Writes (.sepPcWrite o v) o .sepPc s x ∧ x.sep = s.sep ∧ x.flt.getLsbD 0x14 = true ∧
      x.logTotal = satAdd s.logTotal 1)

/-- Writes to instruction memory are performed only while the separator is HALTED or TRAPPED; another is ignored, raises ILLEGAL_OP and is
recorded by the change log. Data memory can be written at any time (R92, R112). -/
def Obligations.SeparatorMemories : Prop :=
  ∀ (s : State) (o : Org) (i : BitVec 15) (v : Word), live s = true → mwf 0 s.imem = true → mwf 0 s.dmem = true →
    let m := sizeMask o.size
    (s.sep.st ≠ .running → ∃ x, Does (.instructionMemoryWrite o i v) s x ∧
      mget 0 x.imem i.toNat = (v &&& m) ||| (mget 0 s.imem i.toNat &&& ~~~ m) ∧
      (∀ j, j ≠ i.toNat → mget 0 x.imem j = mget 0 s.imem j) ∧ x = { s with imem := x.imem }) ∧
    (s.sep.st = .running → ∃ x, Does (.instructionMemoryWrite o i v) s x ∧ x.imem = s.imem ∧
      x.flt.getLsbD 0x14 = true ∧ x.logTotal = satAdd s.logTotal 1) ∧
    (∃ x, Does (.dataMemoryWrite o i v) s x ∧ dmRead x (8 * i.toNat) = (v &&& m) ||| (dmRead s (8 * i.toNat) &&& ~~~ m) ∧
      (∀ a, (a < 8 * i.toNat ∨ 8 * i.toNat + 8 ≤ a) → dmByte x a = dmByte s a) ∧ x = { s with dmem := x.dmem })

/-! ## The churns -/

/-- The oldest op on its way enters its churn's queue and wakes the churn (R149, R356); the op at the head leaves the queue with what is
sampled at dispatch, and the hub has its credit back (R15, R22); a cop op of a reserved code is refused there (R100, R187). That the draw
key, the chain and the rule are those in force at dispatch is the model's reading (log entry 70). -/
def Obligations.ChurnQueues : Prop :=
  ∀ (s : State) (n : BitVec 5), live s = true → let c := churnAt s n.toNat
    (c.coming = [] → Does (.churnOpArrive n) s s) ∧
    (∀ o r, c.coming = o :: r → ∃ x, Does (.churnOpArrive n) s x ∧ (churnAt x n.toNat).coming = r ∧
      (∃ y, (churnAt x n.toNat).queue = c.queue ++ [y] ∧ y.id = o.id ∧ y.kind = o.kind ∧ y.desc = o.desc ∧ y.ga = o.ga ∧
        (o.kind ≠ .sin ∨ o.lsl = false → y.gen = none ∧ y.noGen = false)) ∧
      (churnAt x n.toNat).pwr = c.pwr ∧ (c.pwr ≠ .active → (churnAt x n.toNat).waking = true) ∧
      (∀ k, k ≠ n.toNat → churnAt x k = churnAt s k) ∧ x = { s with churns := x.churns }) ∧
    (c.queue = [] → Does (.churnOpDispatch n) s s) ∧
    (∀ o r, c.queue = o :: r → canDispatch s n.toNat o = false → Does (.churnOpDispatch n) s s) ∧
    (∀ o r, c.queue = o :: r → canDispatch s n.toNat o = true → (o.kind = .cop → isCop 1 o || isCop 2 o || isCop 3 o) →
      ∃ x, Does (.churnOpDispatch n) s x ∧ (churnAt x n.toNat).queue = r ∧ (churnAt x n.toNat).credit = c.credit + 1 ∧
        (∃ y, (churnAt x n.toNat).run = c.run ++ [y] ∧ y.op = o ∧ y.started = false ∧ y.banks = c.active ∧
          y.barrier = (s.sys.mode == 0 || s.sys.mode == 3 || s.sys.mode == 4) ∧ y.compat = (rd s .sfuCfg).getLsbD 0 ∧
          y.key = rd s .drawKey ∧
          (o.kind = .sout → o.desc.chain ≠ 0 → y.steps = rd s (.chainSteps o.desc.chain) ∧ y.param = rd s (.chainParam o.desc.chain)) ∧
          (o.kind = .upd → y.rule = (List.range 8).map fun w => rd s (.updRule (fld o.ga 5 0) w))) ∧
        (∀ k, k ≠ n.toNat → churnAt x k = churnAt s k) ∧ x = { s with churns := x.churns }) ∧
    (∀ o r, c.queue = o :: r → canDispatch s n.toNat o = true → o.kind = .cop → isCop 1 o = false → isCop 2 o = false →
      isCop 3 o = false → ∃ x, Does (.churnOpDispatch n) s x ∧ (churnAt x n.toNat).queue = r ∧
        (churnAt x n.toNat).credit = c.credit + 1 ∧ x.flt.getLsbD 0x14 = true ∧ x.sep.astat.getLsbD 0 = true)

/-- A dispatched op of an ACTIVE churn starts when it is the first on its input contexts (R242), and the churn's units go on: the next state
is the started one when none of them can do anything, and else what they make of it. The step is sampled. A stream-in whose pair is not one
of R156, a stream-out whose chain is not legal (R182), a cop op that cannot act (R187, R188) and an update op whose rule, schedule or tables
are not legal (R299) are refused with ILLEGAL_OP; a stream-in's entry takes the op's generation as its tag, or the generation it did not
get is reported (R149); an update op that is refused, or whose region is FROZEN, records its skip (R303). -/
def Obligations.ChurnOpStarts : Prop :=
  ∀ (s : State) (n : BitVec 5) (id : Nat) (o : RunOp), live s = true → let k := n.toNat
    let rdy (p : ChurnOp → Bool) : Prop := runAt s k id = some o ∧ (churnAt s k).pwr = .active ∧ p o.op = true ∧ o.started = false ∧
      o.aborted = false ∧ firstOn (churnAt s k) o = true
    let runs (c : Instr) (x : State) : Prop := Does c s (churnGo k x) ∧ (churnQuantum k x = none → Does c s x)
    let refused (x : State) : Prop := x.flt.getLsbD 0x14 = true ∧ x.sep.astat.getLsbD 0 = true
    (rdy (fun x => x.kind == .sin) → ∃ x, runs (.streamInOp n id) x ∧
      (sinLegal (ctxAt s o.op.desc.ctx) o.op = true → o.op.gen = none → o.op.noGen = false → x = begun k o false s) ∧
      (∀ g, sinLegal (ctxAt s o.op.desc.ctx) o.op = true → o.op.gen = some g →
        x = modChurn k (setTag o.op.desc.entry (.gen g)) (begun k o false s)) ∧
      (sinLegal (ctxAt s o.op.desc.ctx) o.op = true → o.op.gen = none → o.op.noGen = true →
        x.churns = (begun k o false s).churns ∧ x.flt.getLsbD 5 = true ∧ x.sep.astat.getLsbD 0 = true) ∧
      (sinLegal (ctxAt s o.op.desc.ctx) o.op = false → refused x ∧
        ∃ y, runAt x k id = some y ∧ y.started = true ∧ y.refused = true)) ∧
    (rdy (fun x => x.kind == .sout) → ∃ x, runs (.streamOutOp n id) x ∧
      (chainLegal s k o = true → x = begun k o false s) ∧
      (chainLegal s k o = false → refused x ∧ runAt x k id = some { o with started := true, refused := true, step := s.step.step })) ∧
    (∀ j c, (j, c) ∈ [(1, Instr.ldvec n id), (2, .rowdot n id), (3, .rowstat n id)] → rdy (isCop j) → ∃ x, runs c x ∧
      (copLegal o.op = true → x = begun k o false s) ∧
      (copLegal o.op = false → x.churns = (begun k o true s).churns ∧ refused x)) ∧
    (rdy (fun x => x.kind == .upd) → let p := updPrm s o.op
      let bad : Prop := ruleLegal o.rule (p.mt != 0) (p.vt != 0) = false ∨ s.step.schEn.getLsbD (fld (nth o.rule 6) 6 4) = false ∨
        ∃ t ∈ ruleTabs o.rule p.emb, bankImg s k o t = none
      ∃ x, runs (.updateOp n id) x ∧
        (∃ y, runAt x k id = some y ∧ y.started = true ∧ y.step = s.step.step ∧ (y.refused = true ↔ bad ∨ p.frozen = true)) ∧
        (¬bad → p.frozen = false → x = begun k o false s) ∧ (bad → refused x) ∧
        (bad ∨ p.frozen = true →
          (p.firq = true → x.flt.getLsbD 0xF = true) ∧
          (p.firq = false → (vget {} x.flts 0xF).cnt = satAdd (vget {} s.flts 0xF).cnt 1 ∧
            x.flt.getLsbD 0xF = s.flt.getLsbD 0xF)))

/-- The end of an op's part in a churn, once its work there is done: the op leaves the churn, the churn is taken out of what is left of the
task, and the last part ends the task. Then the entry of a stream-in, RESIDENT if it was being filled, and that of a stream-out lose the
op's reference, and a RELEASED entry that loses its last is FREE (R63, R64); an op on an IN context with BSIG adds one to FULL of its pair
(R247), unless it was aborted (R263). An op with work left does not complete (R61, R99, R187, R296). -/
def Obligations.ChurnOpCompletions : Prop :=
  ∀ (s : State) (n : BitVec 5) (id : Nat) (o : RunOp) (t : Task), live s = true → let k := n.toNat
    runAt s k id = some o → s.tasks.find? (fun t => t.id == id) = some t →
    let left := t.left &&& ~~~ BitVec.ofNat 32 (2 ^ k); let e := t.op.desc.entry; let y := entAt s e
    let c := ctxAt s t.op.desc.ctx; let room := (pairAt s c.sem).full.toNat < 65535
    let ends (i : Instr) (x : State) : Prop := Does i s (churnGo k x) ∧ (churnQuantum k x = none → Does i s x) ∧
      (churnAt x k).run = (churnAt s k).run.filter (fun r => r.op.id != id) ∧
      (left ≠ 0 → x.dir = s.dir ∧ x.tasks.find? (fun t => t.id == id) = some { t with left := left }) ∧
      (left = 0 → x.tasks = s.tasks.filter fun t => t.id != id)
    let less (x : State) (st : ESt) : Prop :=
      (y.st ≠ .released → entAt x e = { y with st := st, refs := y.refs - 1 }) ∧
      (y.st = .released → entAt x e = if y.refs = 1 then {} else { y with refs := y.refs - 1 }) ∧
      ∀ f, f ≠ e → entAt x f = entAt s f
    mwf ({} : Entry) s.dir = true → mwf ({} : Pair) s.pairs = true →
    (o.op.kind = .sin →
      (sinDone s k o = false → Does (.streamInOpComplete n id) s s) ∧
      (sinDone s k o = true → ∃ x, ends (.streamInOpComplete n id) x ∧ (left ≠ 0 → x.pairs = s.pairs) ∧
        (left = 0 → less x (if y.st = .filling then .resident else y.st) ∧
          (c.bsig = true → c.st = .opened → room → (pairAt x c.sem).full = (pairAt s c.sem).full + 1) ∧
          (c.bsig = false ∨ c.st ≠ .opened → x.pairs = s.pairs)))) ∧
    (o.op.kind = .sout →
      (soutDone s k o = false → Does (.streamOutOpComplete n id) s s) ∧
      (soutDone s k o = true → ∃ x, ends (.streamOutOpComplete n id) x ∧ (o.aborted = true → x.pairs = s.pairs ∧ x.txq = s.txq) ∧
        (left = 0 → less x y.st ∧ x.flits = s.flits.filter fun f => f.id != t.id))) ∧
    (o.op.kind = .cop →
      (copDone s k o = false → Does (.copOpComplete n id) s s) ∧
      (copDone s k o = true → ∃ x, ends (.copOpComplete n id) x ∧ x.dir = s.dir ∧
        (o.aborted = true ∨ o.refused = true ∨ copOut o.op = none →
          (left = 0 → t.aborted = false → c.kind = 0 → c.bsig = true → c.st = .opened → room →
            (pairAt x c.sem).full = (pairAt s c.sem).full + 1) ∧
          (left ≠ 0 ∨ t.aborted = true ∨ c.kind ≠ 0 ∨ c.bsig = false ∨ c.st ≠ .opened → x.pairs = s.pairs)))) ∧
    (o.op.kind = .upd →
      (updDone s k o = false → Does (.updateOpComplete n id) s s) ∧
      (updDone s k o = true → ∃ x, ends (.updateOpComplete n id) x ∧ x.dir = s.dir ∧
        (left = 0 → c.kind = 0 → c.bsig = true → c.st = .opened → room →
          (pairAt x c.sem).full = (pairAt s c.sem).full + 1) ∧
        (left ≠ 0 ∨ c.kind ≠ 0 ∨ c.bsig = false ∨ c.st ≠ .opened → x.pairs = s.pairs)))

/-- A tile is delivered only inside the window of its output context, or in a barrier stage, and in order: it is written at its address and
signalled, and the op goes on to its next tile; a row's partials and statistics reach the churn they were sent to (R177, R248, R249, R250,
R256). -/
def Obligations.DeliveriesAndRows : Prop :=
  ∀ (s : State) (n : BitVec 5) (id row seg : Nat), live s = true → let k := n.toNat
    (∀ o u r, runAt s k id = some o → o.op.kind = .sout → o.started = true → (churnAt s k).pwr = .active → o.units = u :: r →
      let x := ctxAt s o.op.desc.ctx; let j := unitTile s o u; let w := (unitPlace s o u).1; let m := Min.min x.tile (w - u.off)
      let may : Prop := o.aborted = false ∧ u.stage = 2 ∧ x.kind = 1 ∧ x.tile ≠ 0 ∧
        (o.barrier = true ∨ j < x.rel.toNat + 2 * x.ht) ∧ firstOut s k o.op = true
      (¬may → Does (.tileDeliver n id) s (churnGo k s) ∧ (churnQuantum k s = none → Does (.tileDeliver n id) s s)) ∧
      (may →
        let a := if o.barrier then x.half 0 + j * x.tile else x.half (j / x.ht) + j % x.ht * x.tile
        let z := fpWrite k a (((u.out.take w).drop u.off).take m) s
        let v := if o.barrier then z else signal k o o.op.desc.ctx (j / x.ht) 1 z
        ∃ t, Does (.tileDeliver n id) s (churnGo k t) ∧ (churnQuantum k t = none → Does (.tileDeliver n id) s t) ∧
          t = { v with churns := t.churns } ∧
          (u.off + m < w → runAt t k id = some { o with tiles := o.tiles + 1, units := { u with off := u.off + m } :: r }) ∧
          (w ≤ u.off + m → runAt t k id = some { o with tiles := o.tiles + 1, uDone := o.uDone + 1, units := r }))) ∧
    (∀ o, runAt s k id = some o → o.op.kind = .sout → o.started = true → (churnAt s k).pwr = .active → o.units = [] →
      Does (.tileDeliver n id) s (churnGo k s)) ∧
    ((∀ o, runAt s k id = some o → o.op.kind ≠ .sout ∨ o.started = false ∨ (churnAt s k).pwr ≠ .active) → Does (.tileDeliver n id) s s) ∧
    (∀ f, s.flits.find? (fun f => f.id == id && f.row == row && f.seg == seg && f.dst.isNone && !f.arrived && f.home.toNat == k) = some f →
      ∃ z, z = { s with flits := z.flits } ∧ z.flits.length = s.flits.length ∧ { f with arrived := true } ∈ z.flits ∧
        (∀ g ∈ s.flits, g ≠ f → g ∈ z.flits) ∧
        (runAt s k id = none → Does (.rowPartial n id row seg) s z) ∧
        (∀ o, runAt s k id = some o → flitJob o f.step = none → Does (.rowPartial n id row seg) s z) ∧
        (∀ o j, runAt s k id = some o → flitJob o f.step = some j →
          Does (.rowPartial n id row seg) s (homeRow k o j f.step row z) ∧
          (gathered z id f.step row (rowFrames o.op.desc.row o.op.elems row).2 = none → Does (.rowPartial n id row seg) s z))) ∧
    ((∀ f ∈ s.flits, ¬(f.id = id ∧ f.row = row ∧ f.seg = seg ∧ f.dst = none ∧ f.arrived = false ∧ f.home = n)) →
      Does (.rowPartial n id row seg) s s) ∧
    (∃ x, Does (.rowStatsArrive n id row) s (churnGo k x) ∧ (churnQuantum k x = none → Does (.rowStatsArrive n id row) s x) ∧
      x = { s with flits := x.flits } ∧ x.flits.length = s.flits.length ∧
      ∀ f, s.flits.find? (fun f => f.id == id && f.row == row && f.dst == some n && !f.arrived) = some f →
        { f with arrived := true } ∈ x.flits)

/-! ## Messages, contexts and the cellar -/

/-- The messages on CCP_INB, with headers `h` (bits [127:64]). A header of another opcode or of the reserved class is a TAG_FAULT (R28, R33,
R42), and a message waits for those before it that its class puts first (R42). TICKET_DONE frees its slot, and what is not the slot's is a
TAG_FAULT; a failed ticket sets ASTAT, and a non-finite one of the open step raises NONFINITE (R122, R123). LAYER_START sets the base of
deadlines (R259). SEM_SIGNAL adds to its counter, and one that does not fit is dropped with SEM_OVERFLOW (R254, R255); that a context whose
pair it is takes EMPTY within the command is the model's (log entry 16). A message of a kind that is not known is dropped with ILLEGAL_OP
(R29). -/
def Obligations.CcpMessages : Prop :=
  ∀ (s : State) (h w : Word) (hdr : BitVec 128), arrives s .ccp 1 → mwf ({} : Ticket) s.tickets = true → mwf ({} : Pair) s.pairs = true →
    let first (h : Word) : Prop := ordered s .ccp 0 (h.extractLsb' 38 2) = false
    let sound (h : Word) : Prop := first h ∧ fld h 63 56 = 5 ∧ fld h 39 38 ≠ 3
    let i := fld w 7 0; let k := ticketAt s i; let code := fld w 19 16; let p := fld w 11 0; let n := fld w 31 16
    let own := s.step.open_ = true ∧ k.inst = some s.step.inst; let h' := hdr.extractLsb' 64 64
    (∀ c, c ∈ [Instr.ticketDone ⟨h, w⟩, .layerStart ⟨h, w⟩, .semSignal ⟨h, w⟩] →
      (¬first h → Does c s { s with bridges := s.bridges ++ [c] }) ∧
      (first h → fld h 63 56 ≠ 5 ∨ fld h 39 38 = 3 → ∃ x, Does c s x ∧ x.flt.getLsbD 0x13 = true ∧ x = { s with flt := x.flt, flts := x.flts })) ∧
    (sound h →
      ((k.taken = false ∨ k.seq.toNat ≠ fld w 15 8) →
        ∃ x, Does (.ticketDone ⟨h, w⟩) s x ∧ x.flt.getLsbD 0x13 = true ∧ x.tickets = s.tickets ∧ x.sep = s.sep) ∧
      (k.taken = true → k.seq.toNat = fld w 15 8 → ∃ x, Does (.ticketDone ⟨h, w⟩) s x ∧
        (ticketAt x i).taken = false ∧ (ticketAt x i).seq = k.seq ∧ (∀ j, j ≠ i → ticketAt x j = ticketAt s j) ∧
        (code = 0 → x.flt = s.flt ∧ x.sep = s.sep ∧ x.ctxs = s.ctxs ∧ x.step = s.step) ∧
        (code = 2 → own → x.flt.getLsbD 0xC = true) ∧
        (code = 2 → ¬own → x.flt = s.flt ∧ x.sep.astat.getLsbD 2 = true ∧ x.ctxs = s.ctxs) ∧
        (code ≠ 0 → code ≠ 2 → x.sep.astat.getLsbD 0 = true ∧ x.sep.astat.getLsbD 2 = true ∧
          ((ctxAt s k.ctx.toNat).st ≠ .opened → x.ctxs = s.ctxs))) ∧
      (Does (.layerStart ⟨h, w⟩) s { s with layerStart := some s.sys.now, paceOn := true, paceCyc := 0, paceLayer := w.setWidth 16 }) ∧
      (w.getLsbD 12 = false → (pairAt s p).full.toNat + n ≤ 65535 → ∃ y, Does (.semSignal ⟨h, w⟩) s (takeEmpty p (setPair s p y)) ∧
        y.full.toNat = (pairAt s p).full.toNat + n ∧ y.empty = (pairAt s p).empty) ∧
      (w.getLsbD 12 = true → (pairAt s p).empty.toNat + n ≤ 65535 → ∃ y, Does (.semSignal ⟨h, w⟩) s (takeEmpty p (setPair s p y)) ∧
        y.empty.toNat = (pairAt s p).empty.toNat + n ∧ y.full = (pairAt s p).full) ∧
      (65535 < (if w.getLsbD 12 then (pairAt s p).empty else (pairAt s p).full).toNat + n →
        ∃ x, Does (.semSignal ⟨h, w⟩) s x ∧ x.flt.getLsbD 0x15 = true ∧ x.pairs = s.pairs)) ∧
    (sound h' → fld hdr 7 0 ∉ [2, 3, 4] →
      ∃ x, Does (.ccpMessageDrop hdr) s x ∧ x.flt.getLsbD 0x14 = true ∧ x.tickets = s.tickets ∧ x.pairs = s.pairs) ∧
    (first h' → fld h' 63 56 ≠ 5 ∨ fld h' 39 38 = 3 →
      ∃ x, Does (.ccpMessageDrop hdr) s x ∧ x.flt.getLsbD 0x13 = true ∧ x = { s with flt := x.flt, flts := x.flts })

/-- OPEN checks the context in CTX_DATA and stores it with both counters of its pair 0, CLOSE aborts what R263 aborts and closes it, READ
copies it (R241); a deadline that passes is recorded once (R259, R260); a stripe weight set in use is not written, with ILLEGAL_OP, and set 0
never (R244). That a command runs whole and one that succeeds clears ERR is the model's (log entry 32). -/
def Obligations.Contexts : Prop :=
  ∀ (s : State) (o : Org), live s = true → mwf ({} : Ctx) s.ctxs = true → mwf ({} : Pair) s.pairs = true → mwf 0 s.regs = true →
    let i := fld (rd s .ctxSel) 13 0; let y := ctxAt s i
    let c : Ctx := { w := (List.range 8).map fun k => rd s (.ctxData k), st := .opened }
    ((tasksOn s i).isEmpty = true → ctxCheck s i c = true → ∃ x, Writes (.ctxOpen o) o .ctxCmd s x ∧ ctxAt x i = c ∧
      (∀ j, j ≠ i → ctxAt x j = ctxAt s j) ∧ pairAt x c.sem = {} ∧ (∀ p, p ≠ c.sem → pairAt x p = pairAt s p) ∧ fld x.ctxStat 11 8 = 0) ∧
    ((tasksOn s i).isEmpty = false ∨ ctxCheck s i c = false → ∃ x, Writes (.ctxOpen o) o .ctxCmd s x ∧ x.ctxs = s.ctxs ∧
      x.pairs = s.pairs ∧ x.flt.getLsbD 0x14 = true ∧
      fld x.ctxStat 11 8 = (if (tasksOn s i).isEmpty then 1 else 2)) ∧
    (∃ x, Writes (.ctxClose o) o .ctxCmd s x ∧ (ctxAt x i).st = .closed ∧ (ctxAt x i).w = y.w ∧
      (∀ j, j ≠ i → ctxAt x j = ctxAt s j) ∧ x.tasks.length = s.tasks.length ∧
      (∀ t ∈ x.tasks, (opCtxs t.op).contains i = true → abortable t = true → t.aborted = true)) ∧
    (∃ x, Writes (.ctxRead o) o .ctxCmd s x ∧ x.ctxs = s.ctxs ∧ (∀ k, k < 8 → rd x (.ctxData k) = y.word k) ∧
      x.ctxProg = y.pos ∧ x.ctxRel = y.rel) ∧
    (∀ (id : Nat) (t : Task), s.tasks.find? (fun t => t.id == id) = some t →
      (s.sys.mode = 2 → t.deadline ≠ 0 → t.base.isSome = true → t.missed = false → ∃ x, Does (.deadlineMiss id) s x ∧
        x.paceEvt = satAdd s.paceEvt 1 ∧ x.flt.getLsbD 9 = true ∧
        (∃ u, x.tasks.find? (fun t => t.id == id) = some u ∧ u = { t with missed := true })) ∧
      (s.sys.mode ≠ 2 ∨ t.deadline = 0 ∨ t.base = none ∨ t.missed = true → Does (.deadlineMiss id) s s)) ∧
    (∀ (k : BitVec 4) (h : BitVec 1) (v : Word), let r : Reg := .stripeWt k.toNat h.toNat
      (k = 0 ∨ setInUse s k.toNat = true → ∃ x, Writes (.stripeWtWrite o k h v) o r s x ∧ x.regs = s.regs ∧
        (setInUse s k.toNat = true → x.flt.getLsbD 0x14 = true)) ∧
      (k ≠ 0 → setInUse s k.toNat = false → ∃ x, Writes (.stripeWtWrite o k h v) o r s x ∧
        rd x r = (v &&& sizeMask o.size) ||| (rd s r &&& ~~~ sizeMask o.size) ∧ (∀ q, Reg.off q ≠ Reg.off r → rd x q = rd s q)))

/-- Marked chunks return to their churn and the ladder is evaluated (R67); a re-encode whose churns have all finished gives the entry its new
format (R74, R76); a spill whose transfer is done leaves the entry SPILLED with one reference less, and a recall leaves it RESIDENT, without
the reference the recall of an instruction holds (R63, R64, R72); an action of the ladder is over once its chunks are returned (log entry 72);
a deferred fetch whose entry is RESIDENT, or whose recall failed, enters the queues of its churns (R99). -/
def Obligations.CellarWork : Prop :=
  ∀ (s : State) (n : BitVec 5) (e : BitVec 17) (slot : BitVec 6), live s = true → mwf ({} : Entry) s.dir = true →
    let y := entAt s e.toNat
    ((∀ x ∈ (churnAt s n.toNat).chunks, x.2.marked = false) → Does (.chunkSweep n) s s) ∧
    ((∃ x ∈ (churnAt s n.toNat).chunks, x.2.marked = true) →
      Does (.chunkSweep n) s (churnGo n.toNat (sweepChunks n.toNat s)) ∧ ∃ z, sweepChunks n.toNat s = ladderEval z ∧
        (churnAt z n.toNat).chunks = (churnAt s n.toNat).chunks.filter (fun x => !x.2.marked) ∧
        (∀ k, k ≠ n.toNat → churnAt z k = churnAt s k) ∧
        z = { s with churns := z.churns, ladder := { s.ladder with actions := z.ladder.actions } } ∧
        (∀ a, a ∈ z.ladder.actions ↔ a ∈ s.ladder.actions ∧ (a.rung = .ret → ∃ m, m < 32 ∧ markedBy z m a.e ≠ 0)) ∧
        (ladderEval z = z → churnQuantum n.toNat z = none → Does (.chunkSweep n) s z)) ∧
    (∀ o, reencOf s e.toNat = some o →
      (reencDone s o = false → Does (.reencodeComplete e) s s) ∧
      (reencDone s o = true → ∃ z, Does (.reencodeComplete e) s (ladderEval z) ∧
        (y.st ≠ .released → (entAt z e.toNat).cur = o.fmt ∧ (entAt z e.toNat).st = y.st ∧ (entAt z e.toNat).refs = y.refs - 1) ∧
        (∀ f, f ≠ e.toNat → entAt z f = entAt s f))) ∧
    (reencOf s e.toNat = none → Does (.reencodeComplete e) s s) ∧
    (∀ i l, jobOn s (fun j => match j with | .spill f _ => f == e.toNat | _ => false) = some i → (chanAt s i).job = .spill e.toNat l →
      (xferDone s (chanNo i) = false → Does (.spillComplete e) s s) ∧
      (xferDone s (chanNo i) = true → ∃ z, Does (.spillComplete e) s (if l then ladderEval (actionReturns e.toNat .spill (bumpCel 1 z)) else z) ∧
        entAt z e.toNat = { y with st := .spilled, refs := y.refs - 1 } ∧ (∀ f, f ≠ e.toNat → entAt z f = entAt s f))) ∧
    (∀ i, jobOn s (fun j => j == .recall e.toNat) = some i →
      (xferDone s (chanNo i) = true → (∀ m, m < 32 → mapOwed s m e.toNat = false) → ∃ x, Does (.recallComplete e) s x ∧
        entAt x e.toNat = { y with st := .resident, cold := 0, recRef := false, refs := if y.recRef then y.refs - 1 else y.refs } ∧
        (∀ f, f ≠ e.toNat → entAt x f = entAt s f)) ∧
      (xferDone s (chanNo i) = false ∨ (∃ m, m < 32 ∧ mapOwed s m e.toNat = true) → Does (.recallComplete e) s s)) ∧
    (s.deferred.find? (fun d => d.1 == slot.toNat) = none → Does (.deferredFetchEnqueue slot) s s) ∧
    (∀ k d, s.deferred.find? (fun d => d.1 == slot.toNat) = some (k, d) → let st := (entAt s d.entry).st
      (d.failed = false → st ≠ .resident ∨ reencoding s d.entry = true → Does (.deferredFetchEnqueue slot) s s) ∧
      (d.failed = false → st = .resident → reencoding s d.entry = false → ∃ x, Does (.deferredFetchEnqueue slot) s x ∧
        x.deferred = mdel s.deferred slot.toNat ∧ x.dir = s.dir ∧
        ∀ m, m < 32 → (churnAt x m).coming = (churnAt s m).coming ++
          (if d.op.desc.chmask.getLsbD m then [{ d.op with cur := (entAt s d.entry).cur }] else [])) ∧
      (d.failed = true → ∃ x, Does (.deferredFetchEnqueue slot) s x ∧ x.deferred = mdel s.deferred slot.toNat ∧
        x.sep.astat.getLsbD 0 = true ∧ ∀ m, m < 32 → d.op.desc.chmask.getLsbD m = true →
          ∃ o, (churnAt x m).coming = (churnAt s m).coming ++ [o]))

/-! ## Register commands of the hub -/

/-- Selector writes copy what they select (R68, R350); the cold cellar moves only while no entry has an extent in it, but may grow (R69); a
channel that is not IDLE keeps its bit of MV_HOWN (R215); the generation and table commands act on all of their mask or on none: a busy
unit, a refused image, a generation that is not FREE, and a mode other than RECOVERY for FORCE_FREE leave the churns' generations and
tables as they are (R138, R151, R208, R209). -/
def Obligations.SelectorsAndTables : Prop :=
  ∀ (s : State) (o : Org) (v : Word), live s = true → mwf 0 s.regs = true →
    let low := sizeMask o.size
    (∃ x, Writes (.dirSelWrite o v) o .dirSel s x ∧ rd x .dirSel = (v &&& ((Reg.desc .dirSel).rw &&& low)) ||| (rd s .dirSel &&& ~~~ ((Reg.desc .dirSel).rw &&& low)) ∧
      x.dirData = (List.range 4).map (entWord (entAt s (fld (rd x .dirSel) 16 0))) ∧ x.dir = s.dir) ∧
    (∃ x, Writes (.clSelWrite o v) o .clSel s x ∧ x.log = s.log ∧
      (let e := mget ({} : LogEnt) s.log (fld (rd x .clSel) 11 0); x.clData = [e.w0, e.w1, e.old, e.new])) ∧
    (s.dir.any (fun x => hasCold x.2) = true →
      (∃ x, Writes (.coldCellarWrite o false v) o .coldBase s x ∧ x.regs = s.regs ∧ x.flt.getLsbD 0x14 = true) ∧
      ((stored o .coldSize v s).toNat ≤ (rd s .coldSize).toNat → ∃ x, Writes (.coldCellarWrite o true v) o .coldSize s x ∧
        x.regs = s.regs ∧ x.flt.getLsbD 0x14 = true) ∧
      ((rd s .coldSize).toNat < (stored o .coldSize v s).toNat → ∃ x, Writes (.coldCellarWrite o true v) o .coldSize s x ∧
        rd x .coldSize = stored o .coldSize v s ∧ x.flt = s.flt)) ∧
    (s.dir.any (fun x => hasCold x.2) = false →
      (∃ x, Writes (.coldCellarWrite o false v) o .coldBase s x ∧ rd x .coldBase = stored o .coldBase v s) ∧
      (∃ x, Writes (.coldCellarWrite o true v) o .coldSize s x ∧ rd x .coldSize = stored o .coldSize v s)) ∧
    (∃ x, Does (.mvHownWrite o v) s x ∧ x.hub = s.hub ∧
      ∀ c, c < 64 → (rd x .mvHown).getLsbD c =
        if (chanAt s (.hub (BitVec.ofNat 6 c))).st = .idle then ((v &&& (low &&& (Reg.desc .mvHown).rw)) ||| (rd s .mvHown &&& ~~~ (low &&& (Reg.desc .mvHown).rw))).getLsbD c
        else (rd s .mvHown).getLsbD c) ∧
    (∀ (mask : BitVec 32) (g : BitVec 4) (c : Instr), c ∈ [Instr.cbLoad o mask g, .cbRetire o mask g, .forceFree o mask g] →
      (s.cbJob.left ≠ 0 → ∃ x, Writes c o .cbCmd s x ∧ x.flt.getLsbD 0x14 = true ∧ x.churns = s.churns ∧ fld x.cbStat 11 8 = 4) ∧
      (s.cbJob.left = 0 → o.size = .high → Writes c o .cbCmd s s)) ∧
    (∀ (mask : BitVec 32) (t : BitVec 3) (c : Instr), c ∈ [Instr.ftLoad o mask t, .ftSwap o mask t] →
      (s.ftJob.left ≠ 0 → ∃ x, Writes c o .ftCmd s x ∧ x.flt.getLsbD 0x14 = true ∧ x.churns = s.churns ∧ fld x.ftStat 15 12 = 4) ∧
      (s.ftJob.left = 0 → o.size = .high → Writes c o .ftCmd s s)) ∧
    (∀ (mask : BitVec 32) (g : BitVec 4), o.size ≠ .high → s.cbJob.left = 0 → let m := if o.size = .full then mask else 0
      let up (n : Nat) : Prop := m.getLsbD n = true ∧ ((churnAt s n).pwr = .active ∨ (churnAt s n).pwr = .idle)
      let img := (List.range 68).map fun w => rd s (.cbStage w)
      let gen (x : State) (n : Nat) (k : BitVec 4) : Gen := vget {} (churnAt x n).gens k.toNat
      (imgLegal img = true → (∀ n, n < 32 → m.getLsbD n = true → (gen s n g).st = .free) →
        ∃ x, Writes (.cbLoad o mask g) o .cbCmd s x ∧ (∀ n, n < 32 → up n → gen x n g = { st := .live, refs := 0, img := img }) ∧
          (∀ n k, n < 32 → (¬up n ∨ k ≠ g) → gen x n k = gen s n k)) ∧
      ((imgLegal img = false ∨ ∃ n, n < 32 ∧ m.getLsbD n = true ∧ (gen s n g).st ≠ .free) →
        ∃ x, Writes (.cbLoad o mask g) o .cbCmd s x ∧ x.flt.getLsbD 0x14 = true ∧ ∀ n k, n < 32 → gen x n k = gen s n k) ∧
      (∃ x, Writes (.cbRetire o mask g) o .cbCmd s x ∧ (∀ n, n < 32 → up n → (gen s n g).st = .live → (gen s n g).refs ≠ 0 →
          gen x n g = { gen s n g with st := .draining }) ∧
        (∀ n, n < 32 → up n → (gen s n g).st = .live → (gen s n g).refs = 0 → gen x n g = {}) ∧
        (∀ n k, n < 32 → (¬up n ∨ k ≠ g ∨ (gen s n k).st ≠ .live) → gen x n k = gen s n k)) ∧
      (s.sys.mode ≠ 4 → ∃ x, Writes (.forceFree o mask g) o .cbCmd s x ∧ x.flt.getLsbD 0x14 = true ∧
        ∀ n k, n < 32 → gen x n k = gen s n k) ∧
      (s.sys.mode = 4 → (∀ n, n < 32 → m.getLsbD n = true → genHeld s n g.toNat = false) →
        ∃ x, Writes (.forceFree o mask g) o .cbCmd s x ∧ (∀ n, n < 32 → up n → gen x n g = {}) ∧
          (∀ n k, n < 32 → (¬up n ∨ k ≠ g) → gen x n k = gen s n k))) ∧
    (∀ (mask : BitVec 32) (t : BitVec 3), o.size ≠ .high → s.ftJob.left = 0 → let m := if o.size = .full then mask else 0
      (∀ n, n < 32 → m.getLsbD n = true → draining (churnAt s n) t.toNat = false) →
      let up (n : Nat) : Prop := m.getLsbD n = true ∧ ((churnAt s n).pwr = .active ∨ (churnAt s n).pwr = .idle)
      let img := ftImage t.toNat s
      (tabLegal ((rd s .sfuCfg).getLsbD 0) t.toNat img = true → ∃ x, Writes (.ftLoad o mask t) o .ftCmd s x ∧
        (∀ n, n < 32 → up n → idleBank (churnAt x n) t.toNat = some img) ∧ (∀ n, n < 32 → (churnAt x n).active = (churnAt s n).active)) ∧
      (tabLegal ((rd s .sfuCfg).getLsbD 0) t.toNat img = false → ∃ x, Writes (.ftLoad o mask t) o .ftCmd s x ∧
        x.flt.getLsbD 0x14 = true ∧ ∀ n, n < 32 → (churnAt x n).banks = (churnAt s n).banks) ∧
      ((∀ n, n < 32 → m.getLsbD n = true → (idleBank (churnAt s n) t.toNat).isSome = true) → ∃ x, Writes (.ftSwap o mask t) o .ftCmd s x ∧
        (∀ n, n < 32 → (churnAt x n).banks = (churnAt s n).banks) ∧
        (∀ n, n < 32 → up n → ∀ k, k < 8 → (churnAt x n).active.getLsbD k = ((churnAt s n).active.getLsbD k ^^ decide (k = t.toNat))) ∧
        (∀ n, n < 32 → ¬up n → (churnAt x n).active = (churnAt s n).active)) ∧
      ((∃ n, n < 32 ∧ m.getLsbD n = true ∧ idleBank (churnAt s n) t.toNat = none) → ∃ x, Writes (.ftSwap o mask t) o .ftCmd s x ∧
        x.flt.getLsbD 0x14 = true ∧ ∀ n, n < 32 → (churnAt x n).active = (churnAt s n).active))

/-! ## Mover channels -/

/-- A write of a hub channel's CTL by its state (R213, R232, R233): GO takes the shadow and queues the channel, or is held behind the
transfer that works; RESUME and CLR act on a halted channel; ABORT ends a queued or halted one at once and stops an active one;
elsewhere they are ignored with ILLEGAL_OP. A pail's are the same once its churn is ACTIVE (R356). That the words of a descriptor that hmv
named are written when its transfer is aborted or cleared too is the model's (log entry 39). -/
def Obligations.ChannelCommands : Prop :=
  ∀ (s : State) (o : Org) (i : ChanId), live s = true → (∀ n k, i = .pail n k → (churnAt s n.toNat).pwr = .active) →
    let c := chanAt s i
    let refused (d : Instr) : Prop := ∃ x, Does d s x ∧ x.flt.getLsbD 0x14 = true ∧ x.hub = s.hub ∧ x.churns = s.churns
    (hostOwned s i = false → refused (.go o i)) ∧
    (hostOwned s i = true →
      (c.st = .idle → ∃ x, Does (.go o i) s x ∧ chanAt x i = { c with
          sh := c.sh.stored, act := c.sh, x := {}, job := .none, runs := c.runs + 1, st := .queued, stamp := s.stamp } ∧
        x.stamp = s.stamp + 1) ∧
      (c.st = .queued ∨ c.st = .active → (c.pend = true → refused (.go o i)) ∧
        (c.pend = false → ∃ x, Does (.go o i) s x ∧ chanAt x i = { c with pend := true })) ∧
      (c.st = .halted ∨ c.st = .aborting → refused (.go o i))) ∧
    (isSystem i = true → refused (.resume o i) ∧ refused (.clr o i) ∧ refused (.abort o i)) ∧
    (isSystem i = false →
      (c.st ≠ .halted → refused (.resume o i)) ∧
      (c.st = .halted → ∃ x, Does (.resume o i) s x ∧ chanAt x i = { c with
          x := resumeX s i, runs := c.runs + 1, st := .queued, stamp := s.stamp } ∧
        (c.x.cover ≠ .sealPeer → (chanAt x i).x.base = chanLen c - c.resid.toNat) ∧ (chanAt x i).x.failing = true) ∧
      (c.st = .idle → Does (.clr o i) s s) ∧
      (c.st = .halted → ∃ x, Does (.clr o i) s (hmvEnd i x) ∧ chanAt x i = { c with st := .idle }) ∧
      (c.st = .queued ∨ c.st = .active ∨ c.st = .aborting → refused (.clr o i)) ∧
      (c.st = .idle ∨ c.st = .aborting → Does (.abort o i) s s) ∧
      (c.st = .halted → ∃ x, Does (.abort o i) s (hmvEnd i x) ∧ chanAt x i = { c with st := .idle, abt := true }) ∧
      (c.st = .queued → ∃ x, Does (.abort o i) s (jobEnd i false (hmvEnd i x)) ∧
        chanAt x i = { c with st := .idle, abt := true, pend := false, resid := c.act.len.setWidth 40 }) ∧
      (c.st = .active → ∃ x, Does (.abort o i) s (moversGo x) ∧ chanAt x i = { c with st := .aborting }))

/-- A channel's own events: a queued channel that may start does so, one whose descriptor is refused stops with ERR 6 and a fault, and one of
LEN 0 is done at once (R219, R235); a transfer that is done leaves the channel IDLE with DONE, or QUEUED with the descriptor that waits
(R226, R233); an aborted one, once its burst is written, IDLE with ABT (R232). A channel that is not ready for the event is left as it is.
When the words of a descriptor that hmv named are written at an abort is the model's (log entry 39). -/
def Obligations.ChannelEvents : Prop :=
  ∀ (s : State) (i : ChanId), live s = true → let c := chanAt s i
    (c.st ≠ .queued ∨ canStart s i = false → Does (.channelStart i) s s) ∧
    (c.st = .queued → canStart s i = true → Does (.channelStart i) s (moversGo (settleChan (startChan i s) i))) ∧
    (c.job = .none → c.x.failing = false → dscOk s i c.act = true → c.act.bytes ≠ 0 → coverOf s i = .clear →
      startChan i s = modChan i (fun c => { c with st := .active, x := startX s i c.x }) s) ∧
    (c.job = .none → c.x.failing = false → dscOk s i c.act = true → c.act.bytes = 0 →
      startChan i s = transferEnd i (modChan i (fun c => { c with st := .active }) s)) ∧
    (c.st = .queued → canStart s i = true → c.job = .none → c.x.failing = false → dscOk s i c.act = true → c.act.bytes = 0 → c.pend = false →
      ∃ x, Does (.channelStart i) s x ∧ chanAt x i = { c with st := .idle, done := true, resid := 0 }) ∧
    (c.st = .queued → canStart s i = true → c.job = .none → c.x.failing = false → dscOk s i c.act = false →
      ∃ x, Does (.channelStart i) s x ∧ (chanAt x i).st = .idle ∧ (chanAt x i).err = 6 ∧ (chanAt x i).flt = true) ∧
    (c.job = .none → c.x.failing = false → dscOk s i c.act = false →
      startChan i s = refuseDsc i s ∧ (chanAt (refuseDsc i s) i).err = 6 ∧ (chanAt (refuseDsc i s) i).flt = true ∧
      (chanAt (refuseDsc i s) i).st = .idle) ∧
    (c.st ≠ .aborting → Does (.abortComplete i) s s) ∧
    (c.st = .aborting → isSystem i = false → xferBusy s (chanNo i) = false → (mget [] c.x.arr c.x.apos).isEmpty = true →
      c.x.out.isEmpty = true → ∃ x, Does (.abortComplete i) s (jobEnd i false (hmvEnd i x)) ∧ (chanAt x i).st = .idle ∧
        (chanAt x i).abt = true ∧ (chanAt x i).resid = BitVec.ofNat 40 (chanLen c - position s (chanNo i) c.x)) ∧
    (xferDone s (chanNo i) = false → Does (.transferComplete i) s s) ∧
    (xferDone s (chanNo i) = true → (∀ e l, c.job ≠ .spill e l) → (∀ e, c.job ≠ .recall e) → isSystem i = false →
      Does (.transferComplete i) s (transferEnd i s)) ∧
    (xferDone s (chanNo i) = true → (∀ e l, c.job ≠ .spill e l) → (∀ e, c.job ≠ .recall e) → isSystem i = true →
      Does (.transferComplete i) s (assignJobs 8 (transferEnd i s))) ∧
    (xferDone s (chanNo i) = true → c.job = .none → isSystem i = false →
      (c.pend = false → ∃ x, Does (.transferComplete i) s x ∧ chanAt x i = { c with st := .idle, done := true, resid := 0 }) ∧
      (c.pend = true → ∃ x, Does (.transferComplete i) s x ∧ chanAt x i = { c with
        st := .queued, done := true, resid := 0, pend := false, act := c.sh, x := {}, stamp := s.stamp }))

/-! ## Ports and links -/

/-- Responses, time-outs, credits and links. A response with no request in flight is dropped with TAG_FAULT, a late one silently (R37, R46);
one with a request in flight reaches its owner and frees the tag (R34); an expired timer completes the request and keeps its tag out until
the late response (R46); credits add up to 65,535 (R38, R40), also before READY, and wait for fclk; a link that rises opens, with the block's credits, when both sides are up
(R39, R49); one that falls takes its requests, tags, credits and what waits with it, and raises the port's bus fault (R47). In the aon-only
state a rise also starts the PLL (R360). The model's: what is not READY or has no link loses its requests (log entry 5), the fault of a
fall names no address (log entry 12), a fall takes the requests that wait in the port's bridges with it (log entry 61), and a fall while fclk is stopped is noted and reported when fclk resumes (log entry 89). -/
def Obligations.ResponsesAndLinks : Prop :=
  ∀ (s : State) (p : PortId) (tag : BitVec 16) (stat : BitVec 4) (data : List Byte) (h : BitVec 4) (d : BitVec 8),
    let x := portAt s p; let mine (f : Flight) : Bool := f.port == p && f.tag == tag
    let idle := ∀ q ∈ s.txq, q.m.port ≠ p
    (live s = true → linkOk s p = true → isRequester p = true →
      (s.inflight.any mine = false → s.late.contains (p, tag) = false → ∃ y, Does (.mpResponse p tag stat data) s y ∧
        y.flt.getLsbD 0x13 = true ∧ y = { s with flt := y.flt, flts := y.flts }) ∧
      (s.inflight.any mine = false → s.late.contains (p, tag) = true →
        Does (.mpResponse p tag stat data) s (pumpAll p { s with late := s.late.filter fun l => l != (p, tag) })) ∧
      (∀ f r, takeOut mine s.inflight = some (f, r) → ∃ z e, Does (.mpResponse p tag stat data) s
          (pumpAll p (finish (answered f (statErr stat.toNat) e { s with inflight := r, freeCtr := z }))) ∧
        (f.rd = true → statErr stat.toNat = 0 → e.length = f.len ∧ e.take data.length = data.take f.len) ∧
        (f.owner = .gone → s.dead = [] → idle → Does (.mpResponse p tag stat data) s { s with inflight := r, freeCtr := z }))) ∧
    (live s = true → linkOk s p = false → exec (.mpResponse p tag stat data) s = .next s) ∧
    (live s = true → (tmoField s p = 0 ∨ s.inflight.any mine = false) → Does (.responseTimeout p tag) s s) ∧
    (∀ f r, live s = true → tmoField s p ≠ 0 → takeOut mine s.inflight = some (f, r) → Does (.responseTimeout p tag) s
      (pumpAll p (finish (answered f 2 [] { s with inflight := r, late := s.late ++ [(p, tag)] }))) ∧
      (f.owner = .gone → s.dead = [] → idle → Does (.responseTimeout p tag) s { s with inflight := r, late := s.late ++ [(p, tag)] })) ∧
    (inReset s = false → linkOk s p = true → p ≠ .cp → fclkOn s = false →
      Does (.creditReturn p h d) s { s with bridges := s.bridges ++ [.creditReturn p h d] }) ∧
    (inReset s = false → linkOk s p = true → p ≠ .cp → fclkOn s = true →
      (x.hdr.toNat + h.toNat ≤ 65535 → x.dat.toNat + d.toNat ≤ 65535 → ∃ y, Does (.creditReturn p h d) s (pumpAll p y) ∧
        (portAt y p).hdr.toNat = x.hdr.toNat + h.toNat ∧ (portAt y p).dat.toNat = x.dat.toNat + d.toNat ∧ y = { s with ports := y.ports } ∧
        (idle → Does (.creditReturn p h d) s y)) ∧
      (65535 < x.hdr.toNat + h.toNat ∨ 65535 < x.dat.toNat + d.toNat → ∃ y, Does (.creditReturn p h d) s (pumpAll p y) ∧
        y.flt.getLsbD 0x13 = true)) ∧
    (x.inUp = true → exec (.linkupRise p) s = .next s) ∧
    (x.inUp = false → ∃ y, Does (.linkupRise p) s (if p = .hbp ∧ x.outUp = true ∧ fclkOn s = true then linkOpened y else y) ∧
      y = { s with ports := y.ports, sys := { s.sys with aonWaking := s.sys.aonWaking || s.sys.aons } } ∧ (∀ q, q ≠ p → portAt y q = portAt s q) ∧
      (x.outUp = false → portAt y p = { x with inUp := true }) ∧
      (x.outUp = true → (portAt y p).inUp = true ∧ (portAt y p).owed = 0 ∧ (portAt y p).hdr = x.hdr ∧
        ((portAt y p).rxHdr, (portAt y p).rxDat) =
          match p with | .fp _ => (64, 1024) | .hbp => (64, 64) | .pp => (256, 2048) | .cp => (8, 8) | .ccp => (128, 128) | .mp _ => (0, 0))) ∧
    (x.inUp = false → exec (.linkupFall p) s = .next s) ∧
    (x.inUp = true → x.outUp = false → exec (.linkupFall p) s = .next (setPort s p { x with inUp := false })) ∧
    (x.inUp = true → x.outUp = true → fclkOn s = false → Does (.linkupFall p) s
      { setPort s p { x with inUp := false, fell := true } with bridges := s.bridges.filter fun c => !cameFrom p c }) ∧
    (x.inUp = true → x.outUp = true → fclkOn s = true → (p = .hbp → s.snap.rbusy = false) → ∃ y,
      Does (.linkupFall p) s (if live s then finish y else y) ∧ portAt y p = { outUp := true, everUp := x.everUp } ∧
      y.bridges = s.bridges.filter (fun c => !cameFrom p c) ∧
      (∀ f ∈ y.inflight, f.port ≠ p) ∧ (∀ f ∈ s.inflight, f.port = p → f ∈ y.dead) ∧ (∀ l ∈ y.late, l.1 ≠ p) ∧
      (∀ t ∈ y.txq, t.m.port ≠ p) ∧ (∀ c, busFault p = some c → y.flt.getLsbD c = true))

/-- Requests on CP_TREQ and HBP_TREQ: control space by one access of R7 (R383), the memory window (R279), the requester's number, the
cellar's protection and the bounds (R31, R33, R280 to R282); a malformed request is answered FORMAT or dropped with TAG_FAULT; what may not
enter is turned away. The model's: what is turned away without a READY block or a link leaves no trace (log entry 5), and which of several
reasons against a request counts (log entry 57). -/
def Obligations.HostRequests : Prop :=
  ∀ (s : State) (r : Req), let off := r.addr.toNat % 2 ^ 62; let win := r.addr.toNat / 2 ^ 62
    turnedAway s .cp (reqCredits r) (.cpRequest r) ∧ turnedAway s .hbp (reqCredits r) (.hbpTargetRequest r) ∧
    (arrives s .cp (reqCredits r) →
      (ordered s .cp 0 2 = true → Does (.cpRequest r) s { s with bridges := s.bridges ++ [.cpRequest r] }) ∧
      (ordered s .cp 0 2 = false →
        (2 ^ 26 ≤ r.addr.toNat ∨ regAt (r.addr.toNat / 8 * 8) = none → Does (.cpRequest r) s (refuseReq .cp r 1 s)) ∧
        (∀ q z, r.addr.toNat < 2 ^ 26 → regAt (r.addr.toNat / 8 * 8) = some q → malformed [1, 2] { r with oc := 2 } = false →
          accessSize r.addr.toNat (r.len.toNat + 1) = some z →
          (churnReady q s = none → r.opc = 1 →
            Does (.cpRequest r) s (answer .cp true r.tag 0 (readBytes z (regVal s q &&& sizeMask z)) (regRead z q s).2)) ∧
          (churnReady q s = none → r.opc = 2 → Does (.cpRequest r) s
            (answer .cp false r.tag 0 [] (regWrite { origin := .cp, rid := r.rid, size := z } q (writeWord z r.data) s))) ∧
          (∀ t, churnReady q s = some t → Does (.cpRequest r) s { t with bridges := t.bridges ++ [.cpRequest r] })) ∧
        (∀ q, r.addr.toNat < 2 ^ 26 → regAt (r.addr.toNat / 8 * 8) = some q →
          (malformed [1, 2] { r with oc := 2 } = true ∨ accessSize r.addr.toNat (r.len.toNat + 1) = none → nonPosted r.opc = true →
            Does (.cpRequest r) s (answer .cp (r.opc == 1) r.tag 5 [] s))))) ∧
    (arrives s .hbp (reqCredits r) →
      (ordered s .hbp 0 r.oc = true → Does (.hbpTargetRequest r) s { s with bridges := s.bridges ++ [.hbpTargetRequest r] }) ∧
      (ordered s .hbp 0 r.oc = false → bit (rd s .hbCfg) 2 = true → r.rid ≠ (rd s .hbRid).setWidth 16 → ∃ x,
        Does (.hbpTargetRequest r) s (refuseReq .hbp r 1 x) ∧ x.flt.getLsbD 0x14 = true ∧ x = { s with flt := x.flt, flts := x.flts }) ∧
      (ordered s .hbp 0 r.oc = false → (bit (rd s .hbCfg) 2 = false ∨ r.rid = (rd s .hbRid).setWidth 16) → malformed [1, 3] r = true →
        win ≠ 0 ∨ (off < 2 ^ 26 ∧ (regAt (off / 8 * 8)).isSome = true) → Does (.hbpTargetRequest r) s (refuseReq .hbp r 5 s)) ∧
      (ordered s .hbp 0 r.oc = false → (bit (rd s .hbCfg) 2 = false ∨ r.rid = (rd s .hbRid).setWidth 16) → malformed [1, 3] r = false →
        (win = 1 → let full := bit (rd s .hbCfg) 0; let a := if full then off else (rd s .winBase).toNat + off
          ((if full then 2 ^ 42 else 2 ^ 26) < off + r.len.toNat + 1 → Does (.hbpTargetRequest r) s (refuseReq .hbp r 1 s)) ∧
          (off + r.len.toNat + 1 ≤ (if full then 2 ^ 42 else 2 ^ 26) →
            (r.opc = 3 → inCellar s a (r.len.toNat + 1) = true → bit (rd s .hbCfg) 1 = false → ∃ x, Does (.hbpTargetRequest r) s x ∧
              x.flt.getLsbD 0x14 = true ∧ x.flt.getLsbD 0x13 = true ∧ x = { s with flt := x.flt, flts := x.flts }) ∧
            (r.opc = 1 ∨ inCellar s a (r.len.toNat + 1) = false ∨ bit (rd s .hbCfg) 1 = true →
              (a + r.len.toNat + 1 ≤ dpaEnd → Does (.hbpTargetRequest r) s (winStart
                { id := 0, port := .hbp, chip := 0, oc := r.oc, tag := r.tag, rd := r.opc == 1, posted := r.opc == 3 } a
                (r.len.toNat + 1) r.data s)) ∧
              (dpaEnd < a + r.len.toNat + 1 → Does (.hbpTargetRequest r) s (refuseReq .hbp r 1 s))))) ∧
        (2 ≤ win → Does (.hbpTargetRequest r) s (refuseReq .hbp r 1 s)) ∧
        (∀ q z, win = 0 → off < 2 ^ 26 → regAt (off / 8 * 8) = some q → accessSize off (r.len.toNat + 1) = some z → churnReady q s = none →
          (r.opc = 1 → Does (.hbpTargetRequest r) s (answer .hbp true r.tag 0 (readBytes z (regVal s q &&& sizeMask z)) (regRead z q s).2)) ∧
          (r.opc = 3 → Does (.hbpTargetRequest r) s
            (regWrite { origin := .hbp, rid := r.rid, size := z } q (writeWord z r.data) s)))))

/-- Requests of peers and of the fabric (R26, R33, R42, R78, R245, R246, R254, R334, R338 to R340, R356): one at FPn_INB wakes its churn and
waits until it is ACTIVE; a SIG adds to its counter; a write on an IN context goes to the op that takes it; clear peer requests go to
memory; under ALL_OFF_PACKAGE the data of a unit are held, a seal record opens its unit or discards it, a read of the seal window reads the
unit for a sealed copy, a read-back tells whether a unit failed, and a copy that expired gives its data up. The model's: what is turned
away leaves no trace (log entry 5), when a unit is performed and its writes are answered (log entry 58), that a context whose pair it is
takes EMPTY within the command, where R249 has the end of the cycle (log entry 16), and the share and the order of the writes of an IN
stream, `ctxShare` and `waitsBefore` (log entry 59). -/
def Obligations.PeerRequests : Prop :=
  ∀ (s : State) (r : Req) (n : BitVec 5),
    (∀ c, c ∈ [Instr.sig (.fp n) r, .inboundWrite n r] → arrives s (.fp n) (reqCredits r) →
      (churnAt s n.toNat).pwr ≠ .active → ∃ y, Does c s y ∧ y.bridges = s.bridges ++ [c] ∧ (churnAt y n.toNat).waking = true ∧
        (∀ k, k ≠ n.toNat → churnAt y k = churnAt s k) ∧ y = { s with bridges := y.bridges, churns := y.churns }) ∧
    (let i := fld r.addr 45 32; let x := ctxAt s i; let k := ofBytes (r.data.take 2); let c : Instr := .sig (.fp n) r
      turnedAway s (.fp n) (reqCredits r) c ∧
      (arrives s (.fp n) 1 → (churnAt s n.toNat).pwr = .active → ordered s (.fp n) 0 r.oc = false →
        r.opc = 4 → r.oc ≠ 3 → r.beOk = true → r.data.length = 8 → r.len = 7 → allZero (r.data.drop 2) = true →
        fld r.addr 63 46 = 0 → fld r.addr 31 1 = 0 →
        (x.st ≠ .opened → ∃ y, Does c s y ∧ y.flt.getLsbD 0x13 = true ∧ y.pairs = s.pairs) ∧
        (x.st = .opened → ∃ w, Does c s (semAdd x.sem (bit r.addr 0) k w s)))) ∧
    (let c : Instr := .sig .pp r; let k := ofBytes (r.data.take 2)
      arrives s .pp 1 → ordered s .pp r.chip r.oc = false →
        r.opc = 4 → r.oc ≠ 3 → r.beOk = true → r.data.length = 8 → r.len = 7 → allZero (r.data.drop 2) = true →
        (fld r.addr 63 48 = 0 → fld r.addr 47 44 = 15 → fld r.addr 43 13 = 0 → ∃ w, Does c s (semAdd (fld r.addr 12 1) (bit r.addr 0) k w s)) ∧
        (fld r.addr 47 44 ≠ 15 → ∃ y, Does c s y ∧ y.flt.getLsbD 0x13 = true ∧ y.pairs = s.pairs)) ∧
    (∀ p e m w, semFits s p e m = true → ∃ y, semAdd p e m w s = takeEmpty p (setPair s p y) ∧
      (e = true → y.empty.toNat = (pairAt s p).empty.toNat + m ∧ y.full = (pairAt s p).full) ∧
      (e = false → y.full.toNat = (pairAt s p).full.toNat + m ∧ y.empty = (pairAt s p).empty)) ∧
    (∀ p e m w, semFits s p e m = false → (semAdd p e m w s).flt.getLsbD 0x15 = true ∧ (semAdd p e m w s).pairs = s.pairs) ∧
    (let i := fld r.addr 45 32; let off := fld r.addr 31 0; let x := ctxAt s i; let c : Instr := .inboundWrite n r
      turnedAway s (.fp n) (reqCredits r) c ∧
      (arrives s (.fp n) (reqCredits r) → (churnAt s n.toNat).pwr = .active →
        malformed [3] r = true ∨ fld r.addr 63 46 ≠ 0 → ∃ y, Does c s y ∧ y.flt.getLsbD 0x13 = true ∧
          y = { s with flt := y.flt, flts := y.flts }) ∧
      (arrives s (.fp n) (reqCredits r) → (churnAt s n.toNat).pwr = .active → ordered s (.fp n) 0 r.oc = false →
        malformed [3] r = false → fld r.addr 63 46 = 0 →
        (x.st ≠ .opened ∨ x.kind ≠ 0 ∨ ctxShare s n.toNat i < off + r.len.toNat + 1 → ∃ y, Does c s y ∧ y.flt.getLsbD 4 = true ∧
          y.churns = s.churns ∧ y.strmFlt = strmWord i n.toNat 4 (off / 64)) ∧
        (x.st = .opened → x.kind = 0 → off + r.len.toNat + 1 ≤ ctxShare s n.toNat i → waitsBefore s n.toNat i = false →
          (takerOp s n.toNat i = none → Does c s { s with bridges := s.bridges ++ [c] }) ∧
          (∀ o, takerOp s n.toNat i = some o →
            (off = nxt o i → opFull o = true → Does c s { s with bridges := s.bridges ++ [c] }) ∧
            (off ≠ nxt o i → ∃ y, Does c s y ∧ y.flt.getLsbD 0x13 = true ∧ y.churns = s.churns) ∧
            (off = nxt o i → opFull o = false → Does c s (inAccept n.toNat i o r.data s)))))) ∧
    (let c : Instr := .ppTargetRequest r; peerIn s r [1, 2, 3] → cryptMode s ≠ 2 →
      (r.addr.toNat + r.len.toNat + 1 ≤ dpaEnd → Does c s (winStart
        { id := 0, port := .pp, chip := r.chip, oc := r.oc, tag := r.tag, rd := r.opc == 1, posted := !nonPosted r.opc } r.addr.toNat
        (r.len.toNat + 1) r.data s)) ∧
      (dpaEnd < r.addr.toNat + r.len.toNat + 1 → Does c s (refuseReq .pp r 1 s))) ∧
    (let c : Instr := .sealRecord r; let unit := r.addr.setWidth 36; let slot := fld r.addr 38 36
      let own (u : HeldUnit) : Bool := u.chip == r.chip && u.unit == unit && u.data.length == 8
      arrives s .pp (reqCredits r) → malformed [1, 2, 3] { r with addr := 0 } = false → r.opc = 3 →
        cryptMode s = 2 → isSealWin r.addr = true → r.len.toNat = 63 →
        (recordWaits s r = true → Does c s { s with bridges := s.bridges ++ [c] }) ∧
        (recordWaits s r = false →
        (s.units.find? own = none → ∃ y, Does c s y ∧ y.flt.getLsbD 3 = true ∧ y.wins = s.wins) ∧
        (∀ u, s.units.find? own = some u → (keyAt s slot).valid = false → ∃ y, Does c s (answerUnit u.wrs 2 y) ∧ y.flt.getLsbD 0x12 = true ∧
          r.chip ∈ y.peerFail ∧ u ∉ y.units) ∧
        (∀ u, s.units.find? own = some u → (keyAt s slot).valid = true →
          gcmOpen (keyBytes (keyAt s slot)) ((r.data.drop 8).take 12) (aadOf (unit.toNat * 4096) slot true (chipId s).toNat)
            (u.data.flatMap (·.2)) ((r.data.drop 24).take 16) = none →
          ∃ y, Does c s (answerUnit u.wrs 2 y) ∧ y.flt.getLsbD 3 = true ∧ r.chip ∈ y.peerFail) ∧
        (∀ u pt, s.units.find? own = some u → (keyAt s slot).valid = true →
          gcmOpen (keyBytes (keyAt s slot)) ((r.data.drop 8).take 12) (aadOf (unit.toNat * 4096) slot true (chipId s).toNat)
            (u.data.flatMap (·.2)) ((r.data.drop 24).take 16) = some pt →
          Does c s (winStart { id := 0, port := .pp, chip := r.chip, oc := r.oc, posted := true, fin := .unit u.wrs } (unit.toNat * 4096) 4096
            pt (freeUnit u s))))) ∧
    (let c : Instr := .ppTargetRequest r; let unit := BitVec.ofNat 36 (r.addr.toNat / 4096)
      arrives s .pp (reqCredits r) → malformed [1, 2, 3] r = false → r.opc = 2 ∨ r.opc = 3 → cryptMode s = 2 → isSealWin r.addr = false →
        r.len.toNat = 511 → r.addr.toNat % 512 = 0 → r.addr.toNat + 512 ≤ dpaEnd →
        s.units.find? (fun u => u.chip == r.chip && u.unit == unit) = none →
        (32 ≤ s.units.length → Does c s { s with bridges := s.bridges ++ [c] }) ∧
        (s.units.length < 32 → (waitingOc s .pp r.chip).any (mustWait r.oc) = false → ∃ y, Does c s y ∧
          y.units = s.units ++ [{ chip := r.chip, unit := unit, data := mset [] [] (r.addr.toNat % 4096) r.data
                                  wrs := if r.opc = 2 then [r.tag] else [], ocs := [r.oc] }] ∧
          y = { s with units := y.units, ports := y.ports })) ∧
    (let c : Instr := .ppTargetRequest r;
      arrives s .pp 0 → ordered s .pp r.chip r.oc = false → cryptMode s = 2 → r.opc = 1 → r.oc = 2 → r.len = 0 → r.beOk = true →
        (isSealWin r.addr = true ∨ r.addr.toNat + 1 ≤ dpaEnd) →
        (s.peerFail.contains r.chip = true →
          Does c s (answer .pp true r.tag 2 [] { s with peerFail := s.peerFail.filter fun x => x != r.chip })) ∧
        (s.peerFail.contains r.chip = false → Does c s (answer .pp true r.tag 0 [0] s))) ∧
    (let c : Instr := .sealWindowRd r; let a := (r.addr.setWidth 36).toNat * 4096; let slot := fld r.addr 38 36
      arrives s .pp 0 → ordered s .pp r.chip r.oc = false → malformed [1, 2, 3] { r with addr := 0 } = false → r.opc = 1 →
        cryptMode s = 2 → isSealWin r.addr = true → r.len.toNat = 63 →
        (dpaEnd < a + 4096 → Does c s (answer .pp true r.tag 1 [] s)) ∧
        (a + 4096 ≤ dpaEnd → 32 ≤ copiesHeld s → Does c s { s with bridges := s.bridges ++ [c] }) ∧
        (a + 4096 ≤ dpaEnd → copiesHeld s < 32 → (keyAt s slot).valid = false → ∃ y, Does c s (answer .pp true r.tag 2 [] y) ∧
          y.flt.getLsbD 0x12 = true ∧ y.wins = s.wins) ∧
        (a + 4096 ≤ dpaEnd → copiesHeld s < 32 → (keyAt s slot).valid = true → ∃ y, Does c s (winStart
          { id := 0, port := .pp, chip := r.chip, oc := r.oc, tag := r.tag, rd := true, fin := .seal (BitVec.ofNat 3 slot) } a 4096 [] y) ∧
          (∀ x ∈ y.copies, ¬(x.chip = r.chip ∧ x.unit = r.addr.setWidth 36)) ∧ y = { s with copies := y.copies })) ∧
    (∀ (chip : BitVec 17) (unit : BitVec 36), live s = true → ∃ y, Does (.sealedCopyExpire chip unit) s y ∧ y = { s with copies := y.copies } ∧
      y.copies.length = s.copies.length ∧
      (∀ x, s.copies.find? (fun x => x.chip == chip && x.unit == unit) = some x →
        y.copies.find? (fun x => x.chip == chip && x.unit == unit) = some { x with expired := true, data := [] }))

/-! ## Command rings -/

/-- The ring registers and fetches (R266 to R268, R272, R276, R277): EN rises and falls; a doorbell is taken only within the ring; the front
end fetches for the ring whose turn it is; a fetched command is taken when its sequence is the one expected, and read again otherwise; an
error response raises the port's bus fault; a command that has not started in time is reported once. The model's choice (log entry 52): EN
that rises while the ring's last command still completes leaves that command, which is counted no more, and count, HEAD and TAIL are 0. -/
def Obligations.RingControl : Prop :=
  ∀ (s : State) (o : Org) (r : BitVec 4) (v : Word), live s = true → mwf 0 s.regs = true →
    let n := r.toNat; let x := ringAt s n; let cfg : Reg := .ringCfg n; let old := rd s cfg
    (∀ c w, (c, w) ∈ [(Instr.ringEnable o r v, v ||| 1), (.ringDisable o r v, v &&& ~~~ 1)] → let new := stored o cfg w s
      (x.st ≠ .off → (old ^^^ new) &&& ~~~ 1 ≠ 0 → ∃ y, Writes c o cfg s y ∧ y.flt.getLsbD 0x14 = true ∧ y.regs = s.regs ∧ y.rings = s.rings) ∧
      (x.st = .off ∨ (old ^^^ new) &&& ~~~ 1 = 0 → ∃ y, Writes c o cfg s y ∧ rd y cfg = new ∧
        (bit old 0 = false → bit new 0 = true → (ringAt y n).count = 0 ∧ (ringAt y n).tail = 0 ∧ (ringAt y n).doneCnt = 0 ∧
          (x.st ≠ .executing → (ringAt y n).st = .idle) ∧
          (x.st = .executing → ringAt y n = { x with count := 0, tail := 0, doneCnt := 0, disabling := false, renew := true })) ∧
        (bit old 0 = true → bit new 0 = false →
          (x.st = .executing → ringAt y n = { x with disabling := true }) ∧
          (x.st = .idle ∨ x.st = .stalled → (ringAt y n).st = .off)) ∧
        (bit old 0 = bit new 0 → y.rings = s.rings))) ∧
    (let t := fld v 15 0; let z := ringN s n; let ahead (k : Nat) : Nat := (k + 2 * z - ringHead s n) % (2 * z)
      let good := t < 2 * z ∧ ahead t ≤ z ∧ ahead x.tail.toNat ≤ ahead t; let c : Instr := .ringDbWrite o r v
      (o.size = .high → Writes c o (.ringDb n) s s) ∧
      (o.size ≠ .high → good → ∃ y, Writes c o (.ringDb n) s y ∧ y = { s with rings := y.rings } ∧ (ringAt y n).tail.toNat = t ∧
        (x.st ≠ .stalled → (ringAt y n).st = x.st) ∧ (x.st = .stalled → (ringAt y n).st = .fetching ∧ (ringAt y n).tries = 0)) ∧
      (o.size ≠ .high → ¬good → ∃ y, Writes c o (.ringDb n) s y ∧ y.flt.getLsbD 0x14 = true ∧ y.rings = s.rings)) ∧
    (fetchNext s ≠ some n → Does (.commandFetch r) s s) ∧
    (fetchNext s = some n → Does (.commandFetch r) s (fetchIssue n { s with lastFetch := n })) ∧
    (∀ m, fetchNext s = some m → m < 16 ∧ fetchable s m = true ∧
      ∀ q, q < 16 → fetchable s q = true → fld (rd s (.ringCfg q)) 5 4 ≤ fld (rd s (.ringCfg m)) 5 4) ∧
    (x.st = .fetching → x.gap = true → x.tries ≠ 0 → Does (.commandRetry r) s (fetchIssue n s)) ∧
    (x.st ≠ .fetching ∨ x.gap = false ∨ x.tries = 0 → Does (.commandRetry r) s s) ∧
    (∀ (stat : BitVec 4) (ws : List Word),
      (s.inflight.any (fun f => f.owner == .fetch r) = false → Does (.commandFetchResponse r stat ws) s s) ∧
      (∀ f l, takeOut (fun (f : Flight) => f.owner == .fetch r) s.inflight = some (f, l) →
        Does (.commandFetchResponse r stat ws) s (fetchDone n f.port f.addr stat.toNat ws { s with inflight := l }))) ∧
    (∀ (p : PortId) (a stat : Nat) (ws : List Word), x.st = .fetching → x.gap = false → x.disabling = false →
      let y := fetchDone n p a stat ws s
      let seen := fld (nth ws 0) 63 63 = (x.count / ringN s n + 1) % 2 ∧ fld (nth ws 0) 62 48 = x.count % 32768
      let k := x.tries + 1; let lim := max 1 (fld (rd s .cmdRetry) 15 0)
      (statErr stat ≠ 0 → y.flt.getLsbD (statFault p 2) = true ∧ (ringAt y n).st = .stalled) ∧
      (statErr stat = 0 → seen → cmdLegal ws = true → (ringAt y n).st = .executing ∧ (ringAt y n).cmd = (List.range 16).map (nth ws) ∧
        (ringAt y n).count = x.count ∧ (ringAt y n).tail = x.tail) ∧
      (statErr stat = 0 → seen → cmdLegal ws = false → y.flt.getLsbD 0x14 = true ∧ (x.renew = false → (nth ws 3).toNat < 16 →
        (ringAt y n).st = .idle ∧ (ringAt y n).count = x.count + 1)) ∧
      (statErr stat = 0 → ¬seen → k < lim → y = { s with rings := y.rings } ∧ (ringAt y n).gap = true ∧ (ringAt y n).tries = k) ∧
      (statErr stat = 0 → ¬seen → lim ≤ k → y.flt.getLsbD 0xA = true ∧ (ringAt y n).st = .stalled)) ∧
    (unstarted s n = true → x.timedOut = false → rd s .cmdTmo ≠ 0 → ∃ y, Does (.cmdTimeout r) s y ∧ y.flt.getLsbD 0xB = true ∧
      ringAt y n = { x with timedOut := true } ∧ y.sep = s.sep) ∧
    (unstarted s n = false ∨ x.timedOut = true ∨ rd s .cmdTmo = 0 → Does (.cmdTimeout r) s s)

/-- The commands of the rings (R113, R265, R270, R271, R273, R275, R283): a ring without that command, and one whose command waits for the
others or only for its last write to be issued, does not act; a completion without a record counts the command, and one with a record
sends it and counts when it is issued; RUN starts the separator where it is HALTED; SEM adds to its counter or completes with STATUS 5; MOVE
launches its channel; LADLE accesses of device memory go out in pieces of at most 512 B to the churn that holds each, those of the cellar
are refused without CELW, and a piece beyond the memory is a bus fault and STATUS 2; LADLE accesses of control space are made one register
at a time, until an unoccupied offset (STATUS 2) or a refused write of instruction memory (STATUS 3); FENCE waits for the commands before
it. The model's: a LADLE_RD completes when the last of its writes is issued (log entry 56), the last command of a ring that is enabled
again while it completes is not counted (log entry 52), and a register's access waits behind one of the host that waits for the same
register (R385), and for its churn's wake (R388). -/
def Obligations.RingCommands : Prop :=
  ∀ (s : State) (r : BitVec 4), live s = true → let n := r.toNat; let x := ringAt s n; let w := x.cmd
    let cmds : List (Instr × Nat) := [(.cmdNop r, 0), (.run r, 1), (.load r, 2), (.ladleWr r, 3), (.ladleRd r, 4), (.move r, 5), (.sem r, 6),
      (.fenceCommand r, 7)]
    let runs (op : Nat) : Prop := x.st = .executing ∧ x.closing = false ∧ cmdOpc w = op ∧ (x.begun = true ∨ x.started = true ∨ bit (nth w 0) 34 = false ∨
      othersBusy s n = false)
    (∀ c k, (c, k) ∈ cmds → cmdOpc w ≠ k ∨ x.st ≠ .executing ∨ x.closing = true → Does c s s) ∧
    (∀ c k, (c, k) ∈ cmds → cmdOpc w = k → x.begun = false → x.started = false → bit (nth w 0) 34 = true → othersBusy s n = true →
      Does c s s) ∧
    (∀ st v, x.st = .executing → let y := cmdDone n st v s
      ((nth w 3).toNat < 16 → y = cmdFin n s) ∧
      (16 ≤ (nth w 3).toNat → linkOk s .hbp = false → y.sent = s.sent ∧ (ringAt y n).st ≠ .executing ∧
        (x.renew = false → (ringAt y n).count = x.count + 1)) ∧
      (16 ≤ (nth w 3).toNat → linkOk s .hbp = true → s.txq.any (fun q => q.m.port == .hbp) = false →
        (canDrive s (recordMsg s n st v) none = false → (ringAt y n).closing = true ∧ (ringAt y n).count = x.count ∧ y.sent = s.sent) ∧
        (canDrive s (recordMsg s n st v) none = true → y.sent = s.sent ++ [recordMsg s n st v] ∧ (ringAt y n).st ≠ .executing ∧
          (x.renew = false → (ringAt y n).count = x.count + 1))) ∧
      y.pairs = s.pairs ∧ y.sep = s.sep ∧ y.dmem = s.dmem ∧ y.imem = s.imem) ∧
    (let y := cmdFin n s;
      (ringAt y n).st = (if x.disabling then .off else .idle) ∧ (ringAt y n).count = (if x.renew then x.count else x.count + 1) ∧
      (ringAt y n).cdone = (x.cdone || bit (nth w 0) 32) ∧ (∀ q, q ≠ n → ringAt y q = ringAt s q) ∧ y = { s with rings := y.rings }) ∧
    (runs 0 → Does (.cmdNop r) s (cmdDone n 0 0 s)) ∧
    (runs 1 → x.started = false → s.sep.st ≠ .halted → ∃ y, Does (.run r) s y ∧ y.sep = s.sep ∧ (ringAt y n).st = .executing) ∧
    (runs 1 → x.started = false → s.sep.st = .halted → (∀ q, q < 16 → holdDone s q = false) → (cmdB w).toNat ≤ 8 → ∃ y,
      y.sep.st = .running ∧ y.sep.pc = (cmdA w).setWidth 15 ∧ y.sep.p = 0 ∧ y.sep.inh = false ∧ y.sep.t = s.sep.t ∧
      (∀ k : BitVec 6, 1 ≤ k.toNat → k.toNat ≤ 8 → gR y k = if k.toNat ≤ (cmdB w).toNat then nth w (k.toNat + 3) else 0) ∧
      (∀ k : BitVec 6, 8 < k.toNat → gR y k = gR s k) ∧ y.sep.layer = s.sep.layer ∧ y.sep.astat = s.sep.astat ∧
      (bit (nth w 0) 33 = false → Does (.run r) s (cmdDone n 0 0 y)) ∧
      (bit (nth w 0) 33 = true → ∃ z, Does (.run r) s z ∧ z.sep = y.sep ∧ (ringAt z n).started = true ∧ (ringAt z n).st = .executing)) ∧
    (holdDone s n = true → Does (.runHoldComplete r) s (cmdDone n 0 (sepStat s) s)) ∧
    (holdDone s n = false → Does (.runHoldComplete r) s s) ∧
    (runs 2 → x.begun = false → Does (.load r) s (assignJobs 8 { modRing n (fun x => { x with begun := true }) s with
      sysWait := s.sysWait ++ [.load r] })) ∧
    (runs 2 → x.begun = true → x.ended = true → Does (.load r) s (cmdDone n (if x.bad then 4 else 0) (BitVec.ofNat 64 x.left) s)) ∧
    (runs 3 → x.begun = false → ladleSpace w = 0 → inCellar s (cmdA w).toNat (ladleLen w) = true → bit (rd s .hbCfg) 1 = false → ∃ y,
      Does (.ladleWr r) s (cmdDone n 3 0 y) ∧ y = { s with rings := y.rings }) ∧
    (runs 3 → x.begun = false → ladleSpace w = 2 → s.sep.st ≠ .running → ∃ y, Does (.ladleWr r) s (cmdDone n 0 0 y) ∧
      y = cspWrite (cmdA w).toNat ((wordsBytes (w.drop 4)).take (ladleLen w)) { s with rings := y.rings }) ∧
    (runs 4 → x.begun = false → ladleSpace w = 2 → x.left = 0 → x.bad = false → ∃ y, Does (.ladleRd r) s (ladleRdEnd n y) ∧
      y = { s with rings := y.rings } ∧ (ringAt y n).got = mset [] x.got 0 (cspRead s (cmdA w).toNat (ladleLen w)) ∧
      (∀ q, q ≠ n → ringAt y q = ringAt s q)) ∧
    (∀ d p l, x.st = .executing → x.closing = false → x.left = 0 → x.bad = false → (nth w 3).toNat < 16 → d = x.got.flatMap (·.2) →
      cuts 256 (cmdInl w 0).toNat d.length = l ++ [p] → ladleRdEnd n s =
        sendBy (some (400 + n)) (ladleRdMsg (cmdInl w 0).toNat d p) none (ringCloses n (l.foldl
          (fun t q => sendBy (some (416 + n)) (ladleRdMsg (cmdInl w 0).toNat d q) none t) (noteWrite true false 0 ((cmdInl w 0).toNat + d.length - 1) s)))) ∧
    (x.st = .executing → x.closing = false → x.left = 0 → x.bad = true → ladleRdEnd n s = cmdDone n 2 0 s) ∧
    (runs 3 → x.begun = true → x.left = 0 → Does (.ladleWr r) s (cmdDone n (if x.bad then 2 else if x.ended then 3 else 0) 0 s)) ∧
    (runs 4 → x.begun = true → x.left = 0 → Does (.ladleRd r) s (ladleRdEnd n s)) ∧
    (∀ wr : Bool, let c : Instr := if wr then .ladleWr r else .ladleRd r; let a := (cmdA w).toNat; let len := ladleLen w
      runs (if wr then 3 else 4) →
      (x.begun = true → ladleSpace w ≠ 1 → x.left ≠ 0 → Does c s s) ∧
      (x.begun = false → ladleSpace w = 0 → 0 < len → (wr = true → inCellar s a len = true → bit (rd s .hbCfg) 1 = true) →
        let ps := cuts 512 a len; let data := (wordsBytes (w.drop 4)).take len
        ((∀ p ∈ ps, p.1 + p.2 ≤ dpaEnd) → ∃ y, y = { s with rings := y.rings } ∧ (ringAt y n).begun = true ∧ (ringAt y n).st = .executing ∧
          (ringAt y n).left = ps.length ∧ (∀ q, q ≠ n → ringAt y q = ringAt s q) ∧
          Does c s (ps.foldl (fun t p => let k := stackOf (ilv t) p.1
            send (if wr then wrMsg (mpP k) p.1 ((data.drop (p.1 - a)).take p.2) 0 else rdMsg (mpP k) p.1 p.2 0)
              (some (if wr then .ladleWr r else .ladleRd r (p.1 - a))) (wake k t)) y)) ∧
        ((∃ p ∈ ps, dpaEnd < p.1 + p.2) → ∃ y, y.flt.getLsbD 1 = true ∧ (ringAt y n).bad = true ∧ (ringAt y n).begun = true ∧
          (ringAt y n).left = (ps.filter fun p => p.1 + p.2 ≤ dpaEnd).length ∧
          ((ringAt y n).left ≠ 0 → Does c s y) ∧ ((ringAt y n).left = 0 → Does c s (cmdDone n 2 0 y)))) ∧
      (∀ y, (x.begun = true ∧ y = s ∨ x.begun = false ∧ y = modRing n (fun x => { x with left := len / 8 }) (modRing n (fun x => { x with begun := true }) s)) →
        ladleSpace w = 1 → (ringAt y n).left ≠ 0 →
        let i := len / 8 - (ringAt y n).left; let off := a + 8 * i; let reg := if off < 2 ^ 26 then regAt off else none
        (reg = none → Does c s (cmdDone n 2 0 (modRing n (fun x => { x with left := 0, bad := true }) y))) ∧
        (∀ q, reg = some q → (hostFirst y off = true → Does c s y) ∧
          (hostFirst y off = false → (∀ z, churnReady q y = some z → Does c s z) ∧
            (churnReady q y = none →
              (wr = false → Does c s (ladleRdEnd n (modRing n (fun x => { x with
                left := x.left - 1, got := mset [] x.got (8 * i) (wordBytes (regRead .full q y).1) }) (regRead .full q y).2))) ∧
              (wr = true → let no : Bool := (match q with | .imem _ => true | _ => false) && s.sep.st == .running
                let z := regWrite ladleOrg q (cmdInl w i) (modRing n (fun x => { x with left := if no then 0 else x.left - 1, ended := no }) y)
                let v := ringAt z n
                (v.st = .executing → v.closing = false → v.left = 0 → Does c s (cmdDone n (if v.bad then 2 else if v.ended then 3 else 0) 0 z)) ∧
                (v.st ≠ .executing ∨ v.closing = true ∨ v.left ≠ 0 → Does c s z))))))) ∧
    (runs 5 → x.started = false → hostOwned s (.hub ((cmdA w).setWidth 6)) = true →
      ((chanAt s (.hub ((cmdA w).setWidth 6))).st ≠ .idle → ∃ y, Does (.move r) s y ∧ y.hub = s.hub ∧ (ringAt y n).started = false) ∧
      ((chanAt s (.hub ((cmdA w).setWidth 6))).st = .idle → ∃ y, Does (.move r) s y ∧ (ringAt y n).started = true ∧
        let h := chanAt y (.hub ((cmdA w).setWidth 6))
        h.st = .queued ∧ h.job = .move r ∧ h.act = { src := nth w 4, dst := nth w 5, len := nth w 6, cfg := nth w 7, sgl := nth w 8, sig := nth w 9 })) ∧
    (runs 5 → x.started = false → hostOwned s (.hub ((cmdA w).setWidth 6)) = false → ∃ y, Does (.move r) s y ∧ y.flt.getLsbD 0x14 = true ∧
      ((nth w 3).toNat < 16 → x.renew = false → (ringAt y n).count = x.count + 1) ∧ y.hub = s.hub) ∧
    (runs 6 → let p := fld (cmdA w) 11 0; let e := bit (cmdA w) 12; let k := fld (cmdB w) 15 0
      let old := if e then (pairAt s p).empty else (pairAt s p).full
      (old.toNat + k ≤ 65535 → ∃ y, Does (.sem r) s (cmdDone n 0 (BitVec.ofNat 64 (old.toNat + k)) y) ∧ y = semAdd p e k ringRec s) ∧
      (65535 < old.toNat + k → ∃ y v, Does (.sem r) s (cmdDone n 5 v y) ∧ y.flt.getLsbD 0x15 = true ∧ y.pairs = s.pairs)) ∧
    (runs 7 → x.ended = false → fenceReady s x = false → ∃ y, Does (.fenceCommand r) s y ∧ y = { s with rings := y.rings } ∧
      (ringAt y n).count = x.count) ∧
    (runs 7 → x.ended = false → fenceReady s x = true → cmdB w = 0 → ∃ y,
      Does (.fenceCommand r) s (cmdDone n 0 0 y) ∧ y = { s with rings := y.rings })

/-! ## Registers, regions and permits -/

/-- Host registers: a write of an occupied offset is the register's and one of an unoccupied offset nothing (R8, R383); a churn's register
waits for its churn, which wakes (R356, R388); a read clears what is read of a counter (R378); FLT_STAT is cleared bit by bit (R378); a
flag log pops (R196); plan counters clear (R130); an interrupt message that was masked is sent when the mask goes (R288); a peer
region that is in use is not written, AUTO probes, the other modes set the path at once, and a probe's answer decides it (R284). The model's:
a message is held only for a MODE other than 0 and the row of a counter read sends no response (log entry 63), the rows POP and CLR act on
their bit alone (log entry 65), and CLR clears whatever FREEZE holds (log entry 75). -/
def Obligations.HostRegisters : Prop :=
  ∀ (s : State) (o : Org) (off : BitVec 26) (v : Word) (n : BitVec 5), live s = true → mwf 0 s.regs = true →
    let at8 := off.toNat / 8 * 8
    let park (c : Instr) (m : Nat) : Prop := ∃ x, Does c s { x with bridges := s.bridges ++ [c] } ∧ x = { s with churns := x.churns } ∧
      churnAt x m = { churnAt s m with waking := true, sleepy := false } ∧ (∀ k, k ≠ m → churnAt x k = churnAt s k)
    (regAt at8 = none → Does (.registerWrite o off v) s s ∧ exec (.rcCounterRead o off) s = .next s) ∧
    (∀ q, regAt at8 = some q →
      (inChurn q = none → Does (.registerWrite o off v) s (regWrite o q v s) ∧ Does (.rcCounterRead o off) s (regRead o.size q s).2) ∧
      (∀ m, inChurn q = some m → (churnAt s m).pwr = .active →
        Does (.registerWrite o off v) s (regWrite o q v s) ∧ Does (.rcCounterRead o off) s (regRead o.size q s).2) ∧
      (∀ m, m < 32 → inChurn q = some m → (churnAt s m).pwr ≠ .active →
        park (.registerWrite o off v) m ∧ park (.rcCounterRead o off) m)) ∧
    (∀ q, q ∈ [Reg.lfTmo, .irqMap 0, .cmdTmo, .wakeAt] → ∃ x, regWrite o q v s = logIf o q s x ∧
      rd x q = (v &&& ((Reg.desc q).rw &&& sizeMask o.size)) ||| (rd s q &&& ~~~ ((Reg.desc q).rw &&& sizeMask o.size)) ∧
      ∀ q', Reg.off q' ≠ Reg.off q → rd x q' = rd s q') ∧
    (∀ c, c < 24 → (regRead .full (.fltCnt c) s).1 = regVal s (.fltCnt c) &&& sizeMask .full ∧
      (vget {} (regRead .full (.fltCnt c) s).2.flts c).cnt = 0 ∧
      (regRead .full (.fltCnt c) s).2 = { s with flts := (regRead .full (.fltCnt c) s).2.flts }) ∧
    (∀ q, rcMask q = 0 → (regRead o.size q s).2 = s) ∧
    (Writes (.fltStatClear o v) o .fltStat s { s with flt := s.flt &&& ~~~ (v &&& sizeMask o.size).setWidth 24 }) ∧
    ((churnAt s n.toNat).pwr = .active → ∃ x, Does (.pop o n) s x ∧ (churnAt x n.toNat).flags = (churnAt s n.toNat).flags.drop 1 ∧
      x = { s with churns := x.churns } ∧ ∀ k, k ≠ n.toNat → churnAt x k = churnAt s k) ∧
    ((churnAt s n.toNat).pwr ≠ .active → park (.pop o n) n.toNat) ∧
    (∃ x, Writes (.planCtlClr o) o .planCtl s x ∧ x.plan = { freeMin := BitVec.ofNat 17 (minFree s) } ∧
      (∀ k, k < 32 → (churnAt x k).lslRaw = 0 ∧ (churnAt x k).lslSect = 0 ∧ (churnAt x k).whey = 0) ∧ x.regs = s.regs) ∧
    (∀ (k : BitVec 3) (w : Word), let r : Reg := .irqMsgCtl k.toNat
      ∃ y, y = wr s r (stored o r w s) ∧ rd y r = stored o r w s ∧
        Writes (.irqMsgMaskWrite o k w) o r s (if bit (rd s r) 2 then irqRelease y k.toNat else y) ∧
        (s.irqPend.getLsbD k.toNat = true → bit (stored o r w s) 2 = false → fld (stored o r w s) 1 0 ≠ 0 → linkOk s .hbp = true →
          (irqRelease y k.toNat).irqPend.getLsbD k.toNat = false)) ∧
    (∀ (k : BitVec 3), let r : Reg := .p2pCtl k.toNat; let new := stored o r (v ||| 1) s; let c : Instr := .p2pEnable o k v
      (bit (rd s r) 0 = true → regionUsed s k.toNat = true → ∃ x, Writes c o r s x ∧ x.flt.getLsbD 0x14 = true ∧ x.regs = s.regs ∧
        x.regions = s.regions) ∧
      (bit (rd s r) 0 = false → bit new 0 = true → fld new 63 62 ≠ 0 → ∃ x, Writes c o r s x ∧ rd x r = new ∧
        let g : Region := vget {} x.regions k.toNat
        g.ready = true ∧ g.bounce = decide (2 ≤ fld new 63 62) ∧ g.pstat = 0) ∧
      (bit (rd s r) 0 = false → bit new 0 = true → fld new 63 62 = 0 → ∃ x y, Writes c o r s x ∧ x = send (rdMsg .hbp (rd s (.p2pBase k.toNat)).toNat 1 2)
        (some (.probe k)) y ∧ (vget {} y.regions k.toNat : Region).ready = false ∧ rd y r = new) ∧
      (bit (rd s r) 0 = true → regionUsed s k.toNat = false → Writes c o r s (wr s r new)) ∧
      (bit (rd s r) 0 = false → bit new 0 = false → Writes c o r s (wr s r new))) ∧
    (∀ (k : BitVec 3) (stat : BitVec 4),
      (s.inflight.any (fun f => f.owner == .probe k) = false → Does (.p2pProbeResponse k stat) s s) ∧
      (s.inflight.any (fun f => f.owner == .probe k) = true → ∃ x, Does (.p2pProbeResponse k stat) s x ∧
        x.inflight.length + 1 = s.inflight.length ∧ (stat ≠ 0 → x.evt.getLsbD 0 = true) ∧ (stat = 0 → x.evt = s.evt) ∧
        let g : Region := vget {} x.regions k.toNat
        g.ready = true ∧ g.bounce = decide (stat ≠ 0) ∧ g.pstat = stat))

/-- The regions' registers (R291, R308): PRM_CFG.EN is refused while the region works, checked when it rises, and left at 0 when the check
fails; TAKE and REL count holds up to 65,535 and down to 0, and are refused beyond. What the change log enters for them (`Writes`) and that a refused
EN keeps the other fields is the model's (log entry 48). -/
def Obligations.RegionCommands : Prop :=
  ∀ (s : State) (o : Org) (k : BitVec 8) (v : Word), live s = true → mwf 0 s.regs = true → mwf 0 s.holds = true →
    let i := k.toNat; let r : Reg := .prmCfg i; let w : Word := v ||| 0x8000000000000000; let old := rd s r; let new := stored o r w s
    let p := prm s i; let c : Instr := .prmEnable o k v; let n := mget 0 s.holds i
    (p.en = true → (s.step.open_ = true ∨ updOn s i = true) →
      (s.step.open_ = true ∨ new = old ∨ (new ^^^ old) &&& ~~~ 0x5000000000000000 ≠ 0) →
      ∃ x, Writes c o r s x ∧ x.flt.getLsbD 0x14 = true ∧ x.regs = s.regs) ∧
    (p.en = true → s.step.open_ = false → (updOn s i = false ∨ (new ≠ old ∧ (new ^^^ old) &&& ~~~ 0x5000000000000000 = 0)) →
      Writes c o r s (wr s r new)) ∧
    (p.en = false → bit new 63 = true → prmCheck s { p with cfg := new } = true → Writes c o r s (wr s r new)) ∧
    (p.en = false → bit new 63 = true → prmCheck s { p with cfg := new } = false → ∃ x, Writes c o r s x ∧
      x.flt.getLsbD 0x14 = true ∧ rd x r = setFld new 63 63 0) ∧
    (p.en = false → bit new 63 = false → Writes c o r s (wr s r new)) ∧
    (o.size = .high → Writes (.take o k) o (.prmHold i) s s ∧ Writes (.prmHoldRel o k) o (.prmHold i) s s) ∧
    (o.size ≠ .high →
      (n < 65535 → ∃ x, Writes (.take o k) o (.prmHold i) s x ∧ mget 0 x.holds i = n + 1 ∧ (∀ j, j ≠ i → mget 0 x.holds j = mget 0 s.holds j)) ∧
      (65535 ≤ n → ∃ x, Writes (.take o k) o (.prmHold i) s x ∧ x.flt.getLsbD 0x14 = true ∧ x.holds = s.holds) ∧
      (n ≠ 0 → ∃ x, Writes (.prmHoldRel o k) o (.prmHold i) s x ∧ mget 0 x.holds i = n - 1 ∧
        (∀ j, j ≠ i → mget 0 x.holds j = mget 0 s.holds j)) ∧
      (n = 0 → ∃ x, Writes (.prmHoldRel o k) o (.prmHold i) s x ∧ x.flt.getLsbD 0x14 = true ∧ x.holds = s.holds))

/-! ## The step and its snapshots -/

/-- Requests on the step (R316, R317): taken only for the open step's number; an abort ends a commit; NONFIN blocks it. Snapshots and
restores (R322, R323, R328 to R331): the interval makes one due; one whose transfer is done writes DONE and changes the area; a restore
needs a quiet block in RECOVERY, ends on the first check of its header that fails, with that check's ERR and fault, and, once done, gives
STEP, DEPOCH, DRAW_KEY, the schedule counts, the pairs and the contexts back; it aborts on a cause of R331. An aborted restore raises
SNAP_ABORT alone, and ERR is cleared when one starts: the model's (log entry 46). -/
def Obligations.StepRequestsAndSnapshots : Prop :=
  ∀ (s : State) (o : Org) (step : BitVec 32) (b : Bool), live s = true →
    let ok := s.step.open_ = true ∧ step = s.step.statStep
    let refused (c : Instr) : Prop := ∃ x, Does c s x ∧ x.flt.getLsbD 0x14 = true ∧ x.step = s.step
    (ok → s.step.pabt = false → Does (.commit o step b) s { s with step := { s.step with pcmt := true, snapFlag := s.step.snapFlag || b } }) ∧
    (¬ok ∨ s.step.pabt = true → refused (.commit o step b)) ∧
    (ok → Does (.stepAbort o step) s { s with step := { s.step with pabt := true, pcmt := false } }) ∧
    (¬ok → refused (.stepAbort o step)) ∧
    (ok → ∃ x, Does (.nonfin o step) s x ∧ x.flt.getLsbD 0xC = true ∧ x.step.blk.getLsbD 1 = true ∧
      x.step.open_ = true ∧ x.dir = s.dir) ∧
    (¬ok → refused (.nonfin o step)) ∧
    (rd s .snapInterval = 0 → Does .snapDue s s) ∧
    (s.sys.aon.toNat < s.snap.last.toNat + (rd s .snapInterval).toNat → Does .snapDue s s) ∧
    (rd s .snapInterval ≠ 0 → s.snap.last.toNat + (rd s .snapInterval).toNat ≤ s.sys.aon.toNat →
      Does .snapDue s { s with snap := { s.snap with due := true } }) ∧
    (s.snap.busy = false ∨ xferDone s snapNo = false → Does .snapshotDone s s) ∧
    (s.snap.busy = true → xferDone s snapNo = true → snapCovered s = false → linkOk s .hbp = true → ∃ x, Does .snapshotDone s x ∧
      x.snap.busy = false ∧ x.snap.area = !s.snap.cur ∧ x.evt.getLsbD 1 = true ∧ x.step = s.step ∧
      (s.txq.any (fun q => q.m.port == .hbp) = false →
        let m := wrpMsg .hbp (areaBase s s.snap.cur + 136) (wordBytes (ctlW s 1)) 2
        (canDrive s m none = true → x.sent = s.sent ++ [m]) ∧ (canDrive s m none = false → x.txq.any (fun q => q.m == m) = true))) ∧
    (restoreOk s = false → ∃ x, Writes (.restore o b) o .snapCmd s x ∧ x.flt.getLsbD 0x14 = true ∧ x.snap.err = 6 ∧
      x.snap.rbusy = s.snap.rbusy ∧ x.pairs = s.pairs ∧ x.ctxs = s.ctxs) ∧
    (restoreOk s = true → areaCovered s = false → ∃ y, Writes (.restore o b) o .snapCmd s (snapGo y) ∧ y.snap.rbusy = true ∧ y.snap.cur = b ∧
      y.snap.err = 0 ∧ y = { s with snap := y.snap }) ∧
    (s.snap.rbusy = false ∨ s.snap.phase ≠ 1 ∨ xferDone s snapNo = false → Does .restoreDone s s) ∧
    (s.snap.rbusy = true → s.snap.phase = 1 → xferDone s snapNo = true → ∃ x, Does .restoreDone s x ∧ x.step.step = ctlW s 1 ∧
      x.step.depoch = (ctlW s 2).setWidth 16 ∧ x.snap.rbusy = false ∧ x.snap.area = !s.snap.cur ∧ x.snap.last = s.sys.aon ∧
      x.pairs = restoredPairs s ∧ x.ctxs = restoredCtxs s ∧ x.dir = s.dir ∧ x.churns = s.churns ∧
      (regsWf s = true → rd x .drawKey = ctlW s 3 ∧ ∀ k, k < 8 → rd x (.schedCnt k) = ctlW s (6 + k) &&& 0xFFFFFFFFFFFF)) ∧
    (let w := ctlW s; let y := restoreCheck s
      let magic := fld (w 0) 31 0 = 0x5A4B534E ∧ fld (w 0) 63 48 = fld (rd s .version) 31 16
      let whole := fld (w 16) 31 0 = (crc32c (wordsBytes ((List.range 16).map w))).toNat ∧ w 17 = w 1
      let chip := fld (w 4) 16 0 = (chipId s).toNat; let layout := fld (w 14) 31 0 = (layoutCrc s).toNat
      let place := fld (rd s .snapDpos) 31 0 = fld (w 1) 31 0
      let fails (err : BitVec 4) (code : Nat) : Prop := y.snap.rbusy = false ∧ y.snap.err = err ∧ y.flt.getLsbD code = true ∧
        y.step = s.step ∧ y.pairs = s.pairs ∧ y.ctxs = s.ctxs ∧ y.regs = s.regs ∧ y.sent = s.sent ∧ y.churns = s.churns
      (¬magic ∨ ¬whole → fails 2 0x14) ∧ (magic → whole → ¬chip → fails 3 0x14) ∧ (magic → whole → chip → ¬layout → fails 4 0x14) ∧
      (magic → whole → chip → layout → ¬place → fails 5 0x10) ∧
      (magic → whole → chip → layout → place → y = restoreRest s ∧ y.snap.phase = 1 ∧ y.snap.rbusy = s.snap.rbusy ∧ y = { s with snap := y.snap })) ∧
    (∀ cause : BitVec 3, (s.snap.rbusy = false ∨ cause = 0 ∨ 4 < cause.toNat → Does (.snapAbort cause) s s) ∧
      (s.snap.rbusy = true → cause ≠ 0 → cause.toNat ≤ 4 → ∃ x, Does (.snapAbort cause) s x ∧ x.flt.getLsbD 0x11 = true ∧
        x.snap.rbusy = false ∧ x.snap.err = 7 ∧ x.pairs = s.pairs ∧ x.ctxs = s.ctxs ∧ x.step.step = s.step.step))

/-! ## Keys and the non-volatile store -/

/-- Keys and the non-volatile store (R342, R343, R347): a slot in use is not written, a slot is valid once its four words are, and
zeroizing clears it and fails the transfer that uses it, with KEY_MISSING; a command of the store is refused with its reason, or keeps the store busy until it finishes: then a sector reads
erased, a page holds NV_PAGE, or NV_PAGE holds the page. The order of the reasons and that PROGRAM takes NV_PAGE when it ends are the
model's (log entry 54). -/
def Obligations.KeysAndStore : Prop :=
  ∀ (s : State) (o : Org) (k : BitVec 3) (w : BitVec 2) (v : Word), mwf 0 s.regs = true → mwf 0xFF s.nv.mem = true →
    let x := keyAt s k.toNat; let r : Reg := .keySlot k.toNat w.toNat; let c : Instr := .keySlotWrite o k w v
    (live s = true →
      (slotUsed s k.toNat = true → ∃ y, Writes c o r s y ∧ y.flt.getLsbD 0x14 = true ∧ y.keys = s.keys) ∧
      (slotUsed s k.toNat = false → ∃ y, Writes c o r s y ∧ y = { s with keys := y.keys } ∧
        vget 0 (keyAt y k.toNat).w w.toNat = (v &&& sizeMask o.size) ||| (vget 0 x.w w.toNat &&& ~~~ sizeMask o.size) ∧
        (∀ j, j ≠ w.toNat → vget 0 (keyAt y k.toNat).w j = vget 0 x.w j) ∧ (∀ j, j ≠ k.toNat → keyAt y j = keyAt s j) ∧
        ((keyAt y k.toNat).valid = true ↔ ∀ j : BitVec 2, j ≠ w → x.valid = false ∧ x.written.getLsbD j.toNat = true)) ∧
      (o.size ≠ .high → ∃ y, Writes (.zero o k) o .keyCtl s y ∧ keyAt y k.toNat = {} ∧ (∀ j, j ≠ k.toNat → keyAt y j = keyAt s j)) ∧
      (o.size = .high → Writes (.zero o k) o .keyCtl s s) ∧
      (∀ (page : BitVec 7) (d : Instr) (op : NvOp), (d, op) ∈ [(Instr.erase o page, NvOp.erase), (.program o page, .program), (.nvRead o page, .read)] →
        (o.size = .high → Writes d o .nvCmd s s) ∧
        (o.size ≠ .high → nvErr s op page.toNat ≠ 0 → ∃ y, Writes d o .nvCmd s y ∧ y.flt.getLsbD 0x14 = true ∧
          y.nv.err = BitVec.ofNat 4 (nvErr s op page.toNat) ∧ y.nv.busy = s.nv.busy ∧ y.nv.mem = s.nv.mem) ∧
        (o.size ≠ .high → nvErr s op page.toNat = 0 → ∃ y, Writes d o .nvCmd s y ∧ y.nv.err = 0 ∧
          y.nv.busy = some (op, page.toNat) ∧ y.nv.mem = s.nv.mem))) ∧
    (∃ y, Does .debugUnlock s y ∧ (∀ j, keyAt y j = {}) ∧
      (live s = false ∨ (∀ j, j < 8 → slotUsed s j = false) → y = { s with keys := y.keys })) ∧
    (∀ i, live s = true → o.size ≠ .high → liveChans s = [i] → s.snap.busy = false → s.snap.rbusy = false →
      let c := chanAt s i; c.st = .active → c.job = .none → c.x.cover ≠ .clear → c.x.slot.toNat = k.toNat → c.x.failing = false →
      ∃ y, Writes (.zero o k) o .keyCtl s y ∧ y.flt.getLsbD 0x12 = true ∧ keyAt y k.toNat = {} ∧ (chanAt y i).err = 8 ∧
        (chanAt y i).x.failing = true ∧ ((chanAt y i).st = .halted ∨ (chanAt y i).st = .active)) ∧
    (s.nv.busy = none → Does .nvCommandDone s s) ∧
    (∀ p, s.nv.busy = some (NvOp.erase, p) → ∃ y, Does .nvCommandDone s y ∧ y.nv.busy = none ∧
      ∀ a, nvByte y a = if a / 2048 = p / 4 then 0xFF else nvByte s a) ∧
    (∀ p, s.nv.busy = some (NvOp.program, p) → ∃ y, Does .nvCommandDone s y ∧ y.nv.busy = none ∧
      let l := (List.range 64).flatMap fun w => wordBytes (rd s (.nvPage w))
      ∀ a, nvByte y a = if 512 * p ≤ a ∧ a < 512 * p + 512 then l.getD (a - 512 * p) 0 else nvByte s a) ∧
    (∀ p, s.nv.busy = some (NvOp.read, p) → ∃ y, Does .nvCommandDone s y ∧ y.nv.busy = none ∧ y.nv.mem = s.nv.mem ∧
      ∀ i, i < 64 → rd y (.nvPage i) = nvWord s (512 * p + 8 * i))

/-! ## Modes, resets, clocks and power -/

/-- Resets and start-up (R239, R348, R363 to R368): what a cold and a warm reset leave; start-up follows when no reset is asserted, from
phase 1 or, after a warm reset, from phase 3, phase by phase; LEAVE ends STARTUP once READY and enters the mode of NEXT, and is refused
before. A voltage that stays low holds every churn at DUTY 1 through a warm reset and from the end of a cold one (R363). The model's: a write
of WRST asserts and releases the reset at once (log entry 21), a warm reset of a start-up that was not yet READY leads to phase 3 too (log
entry 55), and it abandons a codebook or table command that waits for a churn (log entry 85). -/
def Obligations.ResetsAndStartUp : Prop :=
  ∀ (s : State) (o : Org), let t := State.reset
    let cold (x : State) : Prop := x.sep = t.sep ∧ x.imem = [] ∧ x.dmem = [] ∧ x.regs = [] ∧ x.dir = [] ∧ x.ctxs = [] ∧
      (s.sys.droop = false ∨ x.sys.phase = 0 → x.churns = t.churns) ∧
      (s.sys.droop = true → x.sys.phase ≠ 0 → ∀ n, n < 32 → churnAt x n = { churnAt t n with duty := 1 }) ∧
      x.pairs = [] ∧ x.tickets = [] ∧ x.rings = t.rings ∧ x.hub = t.hub ∧ x.step = t.step ∧ x.snap = t.snap ∧ x.keys = t.keys ∧
      x.flt = 0 ∧ x.logTotal = 0 ∧ x.sys.mode = 0 ∧ x.sys.phase.toNat ≤ 3 ∧ x.sys.ref = s.sys.ref ∧
      (∀ p, portAt x p = { inUp := (portAt s p).inUp }) ∧ (s.nv.busy = none → x.nv.mem = s.nv.mem)
    let warm (x : State) : Prop := (∀ i, gR x i = gR s i) ∧ x.sep.t = s.sep.t ∧ x.sep.p = s.sep.p ∧ x.sep.pc = 0 ∧ x.sep.st = .halted ∧
      x.sep.layer = 0 ∧ x.sep.astat = 0 ∧ x.imem = s.imem ∧ x.dmem = s.dmem ∧ x.dir = [] ∧ x.pairs = [] ∧ x.sys.mode = 0 ∧
      (s.step.open_ = false → x.regs = s.regs ∧ x.step.step = s.step.step ∧ x.step.depoch = s.step.depoch) ∧
      (∀ n, n < 32 → (churnAt x n).queue = [] ∧ (churnAt x n).run = [] ∧ (churnAt x n).credit = 256 ∧
        (churnAt x n).duty = (if s.sys.droop then 1 else 0) ∧ (churnAt x n).waking = false) ∧
      (∀ p, linkOk x p = false) ∧ x.nv.mem = s.nv.mem ∧ x.cbJob.left = 0 ∧ x.ftJob.left = 0 ∧
      (s.cbJob.left ≠ 0 → bit x.cbStat 0 = false) ∧ (s.ftJob.left ≠ 0 → bit x.ftStat 0 = false)
    let begins (x : State) (ws : Bool) : Prop := x.sys.phase = if ws then 3 else 1
    let kept (x : State) : Prop := x = { s with sys := x.sys, churns := x.churns } ∧ (s.sys.droop = false → x.churns = s.churns)
    (∃ x, Does .porstNAssert s x ∧ cold x ∧ x.sys.cold = true) ∧
    (∃ x, Does .vddAonLow s x ∧ cold x ∧ x.sys.aonLow = true) ∧
    (s.sys.aonLow = false → ∃ x, Does .powerOn s x ∧ cold x ∧ x.sys.cold = s.sys.cold) ∧
    (s.sys.aonLow = true → ∃ x, Does .powerOn s x ∧ x.sys.aonLow = false ∧ x.sep = s.sep ∧
      (s.sys.cold = false → s.sys.warm = false → s.sys.phase = 0 → begins x s.sys.warmStart)) ∧
    (∃ x, Does .porstNRelease s x ∧ x.sys.cold = false ∧ kept x ∧
      (s.sys.warm = false → s.sys.aonLow = false → s.sys.phase = 0 → begins x s.sys.warmStart)) ∧
    (∃ x, Does .wrstNRelease s x ∧ x.sys.warm = false ∧ kept x ∧
      (s.sys.cold = false → s.sys.aonLow = false → s.sys.phase = 0 → begins x s.sys.warmStart)) ∧
    (s.sys.warm = true → exec .wrstNAssert s = .next s) ∧
    (s.sys.warm = false → ∃ x, Does .wrstNAssert s x ∧ x.sys.warm = true ∧
      (s.sys.cold = true ∨ s.sys.aonLow = true → x = { s with sys := x.sys }) ∧
      (s.sys.cold = false → s.sys.aonLow = false → warm x ∧ x.sys.phase = 0 ∧ x.sys.warmStart = true)) ∧
    (live s = true → o.size ≠ .high → ∃ x, Writes (.wrst o) o .sysCtl s x ∧ (∀ i, gR x i = gR s i) ∧ x.sep.pc = 0 ∧ x.sep.st = .halted ∧
      x.imem = s.imem ∧ x.dmem = s.dmem ∧ x.dir = [] ∧ begins x true ∧ x.sys.mode = 0) ∧
    (inReset s = true → exec .startupPhaseEnd s = .next s) ∧
    (inReset s = false → let p := s.sys.phase
      (p = 1 → s.sys.ref = true → ∃ x, Does .startupPhaseEnd s x ∧ x.sys.phase = 2 ∧ x.sys.pll = rd s .pllCfg) ∧
      (p = 2 → fclkOn s = true → ∃ x, Does .startupPhaseEnd s x ∧ x.sys.phase = 3) ∧
      (p = 3 → fclkOn s = true → s.sys.warmStart = false → ∃ x, Does .startupPhaseEnd s x ∧ x.sys.phase = 4) ∧
      (p = 3 → fclkOn s = true → s.sys.warmStart = true → ∃ x, Does .startupPhaseEnd s (linkOpened x) ∧ x.sys.phase = 7) ∧
      (p = 4 → fclkOn s = true → Does .startupPhaseEnd s (setPhase 5 (imageApply s))) ∧
      (p = 5 → fclkOn s = true → Does .startupPhaseEnd s (phaseRelock (bootAdvance s))) ∧
      (p = 6 → fclkOn s = true → ∃ x, Does .startupPhaseEnd s (linkOpened x) ∧ x.sys.phase = 7 ∧
        ∀ q, (portAt x q).outUp = true ∧ (portAt x q).inUp = (portAt s q).inUp) ∧
      (p = 7 → fclkOn s = true → bit (rd s .sysCtl) 3 = false → ∃ x, Does .startupPhaseEnd s x ∧ x.sys.phase = 8 ∧
        x.sys.mode = s.sys.mode ∧ x.sys.warmStart = false) ∧
      ((p = 0 ∨ 8 ≤ p.toNat) → Does .startupPhaseEnd s s) ∧
      (3 ≤ p.toNat → fclkOn s = false → p.toNat ≤ 7 → Does .startupPhaseEnd s s)) ∧
    (live s = true → o.size ≠ .high → s.sys.mode ≠ 0 → ∃ x, Writes (.leave o) o .sysCtl s x ∧ x.flt.getLsbD 0x14 = true ∧ x.sys = s.sys) ∧
    (inReset s = false → fclkOn s = false → s.sys.phase ≠ 8 → o.size ≠ .high →
      Does (.leave o) s { s with bridges := s.bridges ++ [.leave o] }) ∧
    (inReset s = false → fclkOn s = true → s.sys.phase ≠ 8 → o.size ≠ .high →
      (∃ x, Writes (.leave o) o .sysCtl s x ∧ x.flt.getLsbD 0x14 = true ∧ x.sys = s.sys ∧ x.regs = s.regs) ∧
      (∀ (off : BitVec 26) (v : Word), off.toNat / 8 * 8 = Reg.off .sysCtl → bit v 0 = true →
        ∃ x, Does (.registerWrite o off v) s x ∧ x.flt.getLsbD 0x14 = true ∧ x.sys = s.sys)) ∧
    (live s = true → o.size ≠ .high → s.sys.mode = 0 → ∃ x, Writes (.leave o) o .sysCtl s x ∧ x.sys.locked = true ∧
      x.sys.mode.toNat = (let n := fld (rd s .modeCtl) 6 4; if 1 ≤ n ∧ n ≤ 4 then n else 1))

/-- Modes, clocks and the aon-only state (R351, R353, R355, R359, R360, R370, R374): the transitions of R370 and no others, after which the RWL
fields are locked (R365, R372); TEST zeroizes the keys; the aon-only state needs a quiet block, stops fclk and ends by its causes, a request
that waits, a link that rose, or the timer; a lost reference stops fclk until the PLL has locked again. The model's: the links open again when
the PLL locks at the end of the aon-only state (log entry 51), what the hub missed while fclk was stopped follows then, a request
without credit being dropped with TAG_FAULT (R40, log entry 89), and TEST_ENTER in STARTUP ends STARTUP with its check of the cellar, and
waits for fclk (log entry 91). -/
def Obligations.ModesAndClocks : Prop :=
  ∀ (s : State) (o : Org) (v : Word), mwf 0 s.regs = true →
    let req := fld (v &&& sizeMask o.size) 2 0; let m := s.sys.mode.toNat; let stopped := s.sep.st ≠ .running
    let legal := (m = 1 ∧ req = 2) ∨ (m = 2 ∧ req = 1) ∨ ((m = 1 ∨ m = 2) ∧ req = 4 ∧ stopped) ∨
      (m = 4 ∧ (req = 1 ∨ req = 2) ∧ s.snap.rbusy = false) ∨ ((m = 1 ∨ m = 2 ∨ m = 4) ∧ req = 3 ∧ stopped)
    (live s = true →
      (legal → ∃ x, Writes (.modeRequest o v) o .modeCtl s x ∧ x.sys.mode.toNat = req ∧ x.sys.locked = true ∧ (req = 3 → ∀ k, keyAt x k = {}) ∧
        (req ≠ 3 → x.keys = s.keys)) ∧
      (req ≠ 0 → ¬legal → ∃ x, Writes (.modeRequest o v) o .modeCtl s x ∧ x.flt.getLsbD 0x14 = true ∧ x.sys = s.sys ∧ x.regs = s.regs) ∧
      (req = 0 → Writes (.modeRequest o v) o .modeCtl s (plainWrite o .modeCtl v s)) ∧
      (o.size ≠ .high →
        (aonOk s = false → ∃ x, Writes (.aononly o) o .sysCtl s x ∧ x.flt.getLsbD 0x14 = true ∧ x.sys = s.sys) ∧
        (aonOk s = true → ∃ x, Writes (.aononly o) o .sysCtl s x ∧ x.sys.aons = true ∧ x.sys.lock = false ∧ fclkOn x = false ∧
          (∀ p, linkOk x p = false) ∧ x.inflight = [] ∧ x.dmem = s.dmem ∧ x.sep = s.sep))) ∧
    (inReset s = true ∨ m = 3 → exec .testEnter s = .next s) ∧
    (inReset s = false → m ≠ 3 → fclkOn s = false → Does .testEnter s { s with bridges := s.bridges ++ [.testEnter] }) ∧
    (inReset s = false → m ≠ 3 → fclkOn s = true → ∃ x, Does .testEnter s x ∧ x.sys.mode.toNat = 3 ∧ x.sys.locked = true ∧ (∀ k, keyAt x k = {}) ∧
      (live s = false ∨ (∀ j, j < 8 → slotUsed s j = false) → x.sep = s.sep ∧
        x.hasCellar = (if m = 0 then (cellarCheck s).hasCellar else s.hasCellar))) ∧
    (aonCause .request s = true ↔ ∃ i ∈ s.bridges, callsBlock i = true) ∧
    (aonCause .timer s = true ↔ rd s .wakeAt ≠ 0 ∧ (rd s .wakeAt).toNat ≤ s.sys.aon.toNat) ∧
    (∀ cause, (s.sys.aons = true → inReset s = false → aonCause cause s = true →
        Does (.aonWake cause) s { s with sys := { s.sys with aonWaking := true } }) ∧
      (s.sys.aons = false ∨ inReset s = true ∨ aonCause cause s = false → exec (.aonWake cause) s = .next s)) ∧
    (s.sys.ref = false → exec .refloss s = .next s) ∧
    (s.sys.ref = true → ∃ x, Does .refloss s x ∧ fclkOn x = false ∧ x = { s with sys := x.sys } ∧
      (s.sys.cold = false → s.sys.aonLow = false → x.sys.refloss = true)) ∧
    (∃ x, Does .refclkReturn s x ∧ x = { s with sys := x.sys } ∧ x.sys.ref = true ∧ x.sys.lock = s.sys.lock) ∧
    (locking s = false → exec .pllLock s = .next s) ∧
    (locking s = true → ∃ x, Does .pllLock s (fclkResume (if s.sys.aons then openPorts x else x)) ∧ x = { s with sys := x.sys } ∧ fclkOn x = true ∧
      ((∀ p, (portAt x p).fell = false) → (∀ k, k < 8 → slotUsed x k = false) → linkOk x .hbp = false → s.bridges = [] → fclkResume x = x) ∧
      x.sys.cfgerr = (s.sys.cfgerr || decide (fld s.sys.pll 7 0 < 32 ∨ 88 < fld s.sys.pll 7 0))) ∧
    (∀ c p d, cmdPort c = some (p, d) → linkOk s p = true → let y := creditCheck { s with bridges := [c] }
      (hasRx { s with bridges := [] } p d = true → y.bridges = [c]) ∧
      (hasRx { s with bridges := [] } p d = false → y.bridges = [] ∧ y.flt.getLsbD 0x13 = true))

/-- A churn's power states (R356 to R358): a cause wakes it, and the end of the wake makes it ACTIVE with one lane group after SLEEP and all
after OFF; lane groups come up in order, in an ACTIVE or IDLE churn; an ACTIVE churn without work is IDLE; an IDLE one with AUTO, without HOLD
and without a cause to be awake sleeps once its dirty map lines are written back, unless a cause comes first; OFF needs an empty churn and
loses its contents, while its credits, chunks and held compressed data stay (R73, R358). A window's estimates and temperatures are those
measured, and the block's estimate their sum, by which the duties fall and rise and CAPLOW is latched (R361); a churn at TLIM or above loses 1
more, one at 125 °C, which latches TTRIP, or under a droop is at DUTY 1, and one regains duty only below TLIM − 5 °C (R363). The model's: OFF of
a churn that is OFF or ACTIVE is refused (log entry 51), OFF keeps the churn's generation tags (log entry 84), and the block's estimate reads
65,535 above it (log entry 90). -/
def Obligations.ChurnPower : Prop :=
  ∀ (s : State) (n : BitVec 5) (o : Org), live s = true → let k := n.toNat; let c := churnAt s k
    let lone (x : State) : Prop := x = { s with churns := x.churns } ∧ ∀ m, m ≠ k → churnAt x m = churnAt s m
    (wakeCause s k = false ∨ c.pwr = .active → Does (.churnWake n) s s) ∧
    (wakeCause s k = true → c.pwr ≠ .active → ∃ x, Does (.churnWake n) s x ∧ lone x ∧ churnAt x k = { c with waking := true, sleepy := false }) ∧
    (c.waking = false ∨ c.pwr = .active → Does (.churnWakeDone n) s s) ∧
    (c.waking = true → c.pwr ≠ .active → ∃ x, lone x ∧ (churnAt x k).pwr = .active ∧ (churnAt x k).waking = false ∧
      (churnAt x k).lgup = (if c.pwr = .sleep then 1 else if c.pwr = .off then 0xFFFF else c.lgup) ∧
      Does (.churnWakeDone n) s (churnGo k (pumpAll (fpP k) (pumpAll (mpP k) (tabWoken k x)))) ∧
      (s.cbJob.left.getLsbD k = false → s.ftJob.left.getLsbD k = false → (∀ q ∈ s.txq, q.m.port ≠ mpP k ∧ q.m.port ≠ fpP k) →
        churnQuantum k x = none → Does (.churnWakeDone n) s x)) ∧
    (∀ g : BitVec 4,
      (c.pwr = .active ∨ c.pwr = .idle → c.lgup.toNat + 1 = 2 ^ g.toNat → ∃ x, Does (.laneGroupUp n g) s (churnGo k x) ∧ (churnQuantum k x = none → Does (.laneGroupUp n g) s x) ∧ lone x ∧
        (churnAt x k).lgup.toNat + 1 = 2 ^ (g.toNat + 1)) ∧
      ((c.pwr ≠ .active ∧ c.pwr ≠ .idle) ∨ c.lgup.toNat + 1 ≠ 2 ^ g.toNat → Does (.laneGroupUp n g) s s)) ∧
    (c.pwr = .active → churnQuiet s k = true → ∃ x, Does (.churnIdle n) s x ∧ lone x ∧ churnAt x k = { c with pwr := .idle }) ∧
    (c.pwr ≠ .active ∨ churnQuiet s k = false → Does (.churnIdle n) s s) ∧
    (let r : Reg := .chPwrCtl k;
      (c.pwr ≠ .idle ∨ wakeCause s k = true ∨ bit (rd s r) 0 = false ∨ bit (rd s r) 1 = true → Does (.churnSleep n) s s) ∧
      (c.pwr = .idle → wakeCause s k = false → bit (rd s r) 0 = true → bit (rd s r) 1 = false →
        (dirtyEntries c = [] → c.mapPend = [] → backOwed s k = false →
          ∃ x, Does (.churnSleep n) s x ∧ lone x ∧ churnAt x k = { c with pwr := .sleep, lgup := 0, sleepy := false }) ∧
        (dirtyEntries c = [] → c.mapPend ≠ [] ∨ backOwed s k = true →
          ∃ x, Does (.churnSleep n) s x ∧ lone x ∧ churnAt x k = { c with sleepy := true }) ∧
        (dirtyEntries c ≠ [] → ∃ x, Does (.churnSleep n) s (sleepEnd k ((dirtyEntries c).foldl (fun t e => mapFlush k e t) x)) ∧ lone x ∧
          churnAt x k = { c with sleepy := true })) ∧
      (c.sleepy = true →
        (c.pwr ≠ .idle ∨ wakeCause s k = true → lone (sleepEnd k s) ∧ churnAt (sleepEnd k s) k = { c with sleepy := false }) ∧
        (c.pwr = .idle → wakeCause s k = false → dirtyEntries c = [] → c.mapPend = [] → backOwed s k = false →
          lone (sleepEnd k s) ∧ churnAt (sleepEnd k s) k = { c with pwr := .sleep, lgup := 0, sleepy := false })) ∧
      (o.size ≠ .high → offOk s k = false → ∃ x, Writes (.off o n) o r s x ∧ x.flt.getLsbD 0x14 = true ∧ x.churns = s.churns) ∧
      (o.size ≠ .high → offOk s k = true → ∃ x, Writes (.off o n) o r s x ∧ (churnAt x k).pwr = .off ∧
        (churnAt x k).gens = ({} : Churn).gens ∧ (churnAt x k).vslots = ({} : Churn).vslots ∧ (churnAt x k).credit = c.credit ∧
        (churnAt x k).chunks = c.chunks ∧ (churnAt x k).tags = c.tags ∧ (churnAt x k).lgup = 0 ∧
        ∀ m, m ≠ k → churnAt x m = churnAt s m) ∧
      (∀ v, mwf 0 s.regs = true → bit (v &&& sizeMask o.size) 2 = false → ∃ x, Writes (.hold o n v) o r s x ∧ rd x r = stored o r v s ∧
        (bit (v &&& sizeMask o.size) 1 = true → c.pwr ≠ .active → (churnAt x k).waking = true) ∧
        (bit (v &&& sizeMask o.size) 1 = false → bit (stored o r v s) 0 = true → x.churns = s.churns) ∧
        (bit (v &&& sizeMask o.size) 1 = false → bit (stored o r v s) 0 = false → churnAt x k = { c with sleepy := false }) ∧ (∀ m, m ≠ k → churnAt x m = churnAt s m))) ∧
    (∀ (hub : BitVec 16) (est : List (BitVec 16)) (temp : List Byte), ∃ x, Does (.capWindow hub est temp) s x ∧ x = { s with
        churns := x.churns, sys := { s.sys with blockEst := x.sys.blockEst, below := x.sys.below, capEvt := x.sys.capEvt } } ∧
      x.sys.blockEst.toNat = min 65535 (hub.toNat + (List.range 32).foldl (fun a i => a + (est.getD i 0).toNat) 0) ∧
      (∀ i, i < 32 → (churnAt x i).est = est.getD i 0 ∧ (churnAt x i).temp = temp.getD i 0 ∧ (churnAt x i).pwr = (churnAt s i).pwr) ∧
      (∀ i, i < 32 → (s.sys.droop = true ∨ 125 ≤ (temp.getD i 0).toNat) → (churnAt x i).duty = 1) ∧
      ((∃ i, i < 32 ∧ 125 ≤ (temp.getD i 0).toNat) → x.sys.capEvt.getLsbD 1 = true) ∧
      let E := hub.toNat + (List.range 32).foldl (fun a i => a + (est.getD i 0).toNat) 0; let cap := fld (rd s .pwrCap) 11 0
      let d (t : State) (i : Nat) : Nat := dutyOf (churnAt t i); let w (i : Nat) : Nat := (est.getD i 0).toNat
      let T (i : Nat) : Nat := (temp.getD i 0).toNat; let lim := fld (rd s .thermCfg) 7 0
      let awake (i : Nat) : Prop := (churnAt s i).pwr = .active ∨ (churnAt s i).pwr = .idle
      (cap ≠ 0 → 4 * cap < E → (∀ i, i < 32 → awake i → d s i = 1) → x.sys.capEvt.getLsbD 0 = true) ∧
      (s.sys.droop = false → ∀ i, i < 32 → T i < 125 →
        let cools (k : Nat) : Prop := d x i = if lim ≤ T i then max 1 (k - 1) else k
        (cap = 0 ∨ 4 * (cap - cap / 16) ≤ E ∧ E ≤ 4 * cap → cools (d s i) ∧ x.sys.below = 0) ∧
        (cap ≠ 0 → 4 * (cap + cap / 8) < E → x.sys.below = 0 ∧ (awake i → 1 < d s i → cools (d s i - 1)) ∧
          (¬awake i ∨ d s i = 1 → cools (d s i))) ∧
        (cap ≠ 0 → 4 * cap < E → E ≤ 4 * (cap + cap / 8) → x.sys.below = 0 ∧
          let top := 1 < d s i ∧ ∀ j, j < 32 → 1 < d s j → w j < w i ∨ w j = w i ∧ i ≤ j
          (top → cools (d s i - 1)) ∧ (¬top → cools (d s i))) ∧
        (cap ≠ 0 → E < 4 * (cap - cap / 16) →
          (s.sys.below + 1 < 8 → x.sys.below = s.sys.below + 1 ∧ cools (d s i)) ∧
          (8 ≤ s.sys.below + 1 → x.sys.below = 0 ∧
            let least := d s i < 8 ∧ ∀ j, j < 32 → d s j < 8 → d s i < d s j ∨ d s i = d s j ∧ i ≤ j
            (least → T i + 5 < lim → d x i = d s i + 1) ∧ (¬least ∨ lim ≤ T i + 5 → cools (d s i)))))) ∧
    (∃ x, Does .vdroop s x ∧ (∀ i, i < 32 → (churnAt x i).duty = 1) ∧ x.sys.droop = true ∧ x.sys.capEvt.getLsbD 2 = true ∧ x.sep = s.sep) ∧
    (Does .vdroopEnd s { s with sys := { s.sys with droop := false } })
end

