-- ==== Sys2Proof/Laws/Faults.lean ====
section
/-! SUPPORT. What raising a fault can do (R108, R314, R376), and when a write is logged once (R349). -/

namespace Sys2Proof.Machine

/-- The marks of a raise are in ASTAT and on the open step. -/
theorem raiseMarks_frame (c : Nat) (s : State) :
    raiseMarks c s = { s with
      sep := { s.sep with astat := (raiseMarks c s).sep.astat }
      step := { s.step with late := (raiseMarks c s).step.late, blk := (raiseMarks c s).step.blk } } := by
  unfold raiseMarks; split
  · rfl
  · split
    · unfold markNonfinite; dsimp only; split <;> rfl
    · rfl

/-- A raise changes the fault registers, ASTAT, and the marks of an open step; nothing else. -/
theorem raise_frame (c : Nat) (w i : Word) (s : State) :
    raise c w i s = { s with
      flts := (raise c w i s).flts, flt := s.flt ||| BitVec.ofNat 24 (2 ^ c)
      sep := { s.sep with astat := (raise c w i s).sep.astat }
      step := { s.step with late := (raise c w i s).step.late, blk := (raise c w i s).step.blk } } := by
  unfold raise; rw [raiseMarks_frame]

/-- A raise sets its status bit. -/
theorem raise_bit {c : Nat} (w i : Word) (s : State) (h : c < 24) : (raise c w i s).flt.getLsbD c = true := by
  rw [raise_frame]
  show (s.flt ||| BitVec.ofNat 24 (2 ^ c)).getLsbD c = true
  rw [BitVec.getLsbD_or, BitVec.getLsbD_ofNat, Nat.testBit_two_pow_self, decide_eq_true h, Bool.and_self, Bool.or_true]

/-- A raise clears no status bit. -/
theorem raise_keeps {c k : Nat} (w i : Word) (s : State) (h : s.flt.getLsbD k = true) : (raise c w i s).flt.getLsbD k = true := by
  rw [raise_frame]; simp [h]

/-- A raise of another fault than CELLAR_FULL and NONFINITE leaves the separator and the step as they are. -/
theorem raise_plain {c : Nat} (w i : Word) (s : State) (h : c ≠ 8) (h2 : c ≠ 12) :
    raise c w i s = { s with flts := (raise c w i s).flts, flt := s.flt ||| BitVec.ofNat 24 (2 ^ c) } := by
  unfold raise raiseMarks; rw [if_neg h, if_neg h2]

/-- A counter that is not full counts. -/
theorem satAdd_one {n : Nat} {t : BitVec n} (h : t ≠ BitVec.allOnes n) : satAdd t 1 = t + 1 := by
  have h1 : t.toNat ≠ 2 ^ n - 1 := fun e => h (BitVec.eq_of_toNat_eq (by simpa using e))
  have h2 := t.isLt
  apply BitVec.eq_of_toNat_eq
  rw [satAdd, BitVec.toNat_ofNat, BitVec.toNat_add, Nat.min_eq_left (by omega)]
  simp

/-- A write that added an entry of its own gets no second one. -/
theorem logIf_logged (o : Org) (r : Reg) {s s' : State} (h : s'.logTotal ≠ s.logTotal) : logIf o r s s' = s' := by
  simp [logIf, h]

/-- A refused write adds one entry. -/
theorem refuseWrite_total (o : Org) (off : Nat) (old v : Word) (s : State) :
    (refuseWrite o off old v s).logTotal = satAdd s.logTotal 1 := by
  unfold refuseWrite illegalReg; rw [raise_frame]; rfl

/-- A refused write changes the log and the fault registers alone. -/
theorem refuseWrite_frame (o : Org) (off : Nat) (old v : Word) (s : State) :
    refuseWrite o off old v s = { s with
      flts := (refuseWrite o off old v s).flts, flt := s.flt ||| BitVec.ofNat 24 (2 ^ 0x14)
      log := (refuseWrite o off old v s).log, logTotal := satAdd s.logTotal 1 } := by
  unfold refuseWrite illegalReg; rw [raise_plain _ _ _ (by decide) (by decide)]; rfl

/-- A refused write that the log counts is logged once. -/
theorem refuse_once (o : Org) (r : Reg) (old v : Word) {s : State} (h : s.logTotal ≠ BitVec.allOnes 48) :
    logIf o r s (refuseWrite o (Reg.off r) old v s) = refuseWrite o (Reg.off r) old v s := by
  apply logIf_logged; rw [refuseWrite_total, satAdd_one h]
  intro e; have := congrArg BitVec.toNat e; simp at this; omega

end Sys2Proof.Machine
end

