-- ==== Sys2Proof/Laws/Settle.lean ====
section
/-! SUPPORT. What forming the interrupt requests afresh can change (R287, R288, R381), and that it leaves the lines wired. -/

namespace Sys2Proof.Machine

theorem Reports.refl (s : State) : Reports s s := rfl

theorem Reports.trans {a b c : State} (h : Reports a b) (k : Reports b c) : Reports a c := by
  unfold Reports at *; rw [k, h]

/-- A message sent behind the others on a port whose link is up. -/
theorem sendLast_reports {m : Msg} {s : State} (h : linkOk s m.port = true) : Reports s (sendLast m s) := by
  simp only [sendLast, h, Bool.not_true, Bool.false_eq_true, if_false]
  split
  · rfl
  · rfl

/-- A request that rises or falls. -/
theorem irqEdge_reports (new : BitVec 8) (s : State) (v : Nat) : Reports s (irqEdge new s v) := by
  simp only [irqEdge]
  split
  · split
    · rfl
    · split
      · rfl
      · next h => exact sendLast_reports (by simp_all [irqMessage, wrpMsg])
  · split <;> rfl

/-- All requests together. -/
theorem irqEdges_reports (new : BitVec 8) (l : List Nat) (s : State) : Reports s (l.foldl (irqEdge new) s) := by
  induction l generalizing s with
  | nil => rfl
  | cons v r ih => exact (irqEdge_reports new s v).trans (ih _)

/-- Everything forming the requests can do. -/
theorem report_reports (s : State) : Reports s (report s) := by
  simp only [report]
  split
  · rfl
  · exact (irqEdges_reports _ _ s).trans rfl

/-- Everything the end of a command can do. -/
theorem settle_reports (s : State) : Reports s (settle s) := by
  unfold settle; split
  · exact report_reports s
  · rfl

/-- The hub of a block that works forms the requests. -/
theorem hubOn_live {s : State} (h : live s = true) : hubOn s = true := by
  simp only [live, Bool.and_eq_true] at h; simp [hubOn, h]

/-- The end of a command while the hub works. -/
theorem settle_on {s : State} (h : hubOn s = true) : settle s = report s := by simp [settle, h]

/-- The sources, and so the requests, do not depend on what a report changes. -/
theorem Reports.irqRequests {s t : State} (h : Reports s t) : irqRequests t = irqRequests s := by rw [h]; rfl

/-- Whether the hub works does not depend on what a report changes. -/
theorem Reports.hubOn {s t : State} (h : Reports s t) : hubOn t = hubOn s := by rw [h]; rfl

/-- The lines of a request do not depend on what a report changes. -/
theorem Reports.irqLines {s t : State} (h : Reports s t) (r : BitVec 8) : irqLines t r = irqLines s r := by rw [h]; rfl

theorem irqLines_zero (s : State) : Machine.irqLines s 0 = 0 := by simp [Machine.irqLines, List.range, List.range.loop]

/-- The requests a reported state holds are the ones its sources give. -/
theorem report_irqReq (s : State) : (report s).irqReq = Machine.irqRequests s := by
  simp only [report]; split <;> simp_all

/-- The lines a reported state drives. -/
theorem report_irqOut (s : State) : (report s).irqOut = Machine.irqLines s (Machine.irqRequests s) := by
  by_cases k : Machine.irqRequests s = 0
  · simp only [report, k, if_true]; exact (irqLines_zero s).symm
  · by_cases h : Machine.irqRequests s = s.irqReq
    · simp only [report, h, if_true]; rw [← h, if_neg k]
    · simp only [report, k, h, if_false]
      have := irqEdges_reports (Machine.irqRequests s) (List.range 8) s
      rw [← this.irqLines]; rfl

/-- The requests of a settled state of a block that works. -/
theorem settle_irqReq {s : State} (h : Machine.hubOn s = true) : (settle s).irqReq = Machine.irqRequests s := by
  rw [settle_on h, report_irqReq]

/-- The lines of a settled state of a block that works. -/
theorem settle_irqOut {s : State} (h : Machine.hubOn s = true) :
    (settle s).irqOut = Machine.irqLines s (Machine.irqRequests s) := by
  rw [settle_on h, report_irqOut]

/-- Forming the requests afresh wires them. -/
theorem settle_wired (s : State) : wired (settle s) = true := by
  by_cases h : Machine.hubOn s = true
  · rw [settle_on h]
    simp [wired, report_irqReq, report_irqOut, (report_reports s).irqRequests, (report_reports s).irqLines]
  · simp [wired, settle, h]

end Sys2Proof.Machine
end

