-- ==== Sys2Proof/Laws/Gates.lean ====
section
/-! SUPPORT. What each way into the block can answer: the gate of the host's ports, events inside the block, and the issue of an
instruction. -/

namespace Sys2Proof.Machine

/-- An outcome in whose next state the interrupt requests are wired. -/
def Wired (o : Out) : Prop := ∀ t, o = .next t → wired t = true

theorem wired_next {s : State} (h : wired s = true) : Wired (.next s) := by
  intro t ht; cases ht; exact h

theorem wired_settle (s : State) : Wired (.next (settle s)) := wired_next (settle_wired s)

theorem wired_done (s : State) : Wired (done s) := wired_settle s

theorem wired_inner {f : State → State} {s : State} (h : wired s = true) : Wired (inner f s) := by
  unfold inner; split
  · exact wired_done _
  · exact wired_next h

theorem wired_hostGate {c : Instr} {f : State → Out} {s : State} (h : wired s = true) (hf : Wired (f s)) :
    Wired (hostGate c f s) := by
  unfold hostGate; split
  · exact wired_next h
  · split
    · exact wired_done _
    · exact hf

theorem wired_regCmd {o : Org} {r : Reg} {c : Instr} {f : State → State} {s : State} (h : wired s = true) :
    Wired (regCmd o r c f s) := wired_hostGate h (wired_done _)

/-- A request at a port of a block that works goes on at once (R359, R366). -/
theorem hostGate_live {s : State} (h : live s = true) (c : Instr) (f : State → Out) : hostGate c f s = f s := by
  simp only [live, Bool.and_eq_true, beq_iff_eq, Bool.not_eq_true'] at h
  simp [hostGate, accepts, h]

/-- An event inside a block that works has its effect. -/
theorem inner_live {s : State} (h : live s = true) (f : State → State) : Machine.inner f s = .next (settle (f s)) := by
  simp [Machine.inner, h, done]

/-- A register command at a block that works has its effect, and is logged. -/
theorem regCmd_live {s : State} (h : live s = true) (o : Org) (r : Reg) (c : Instr) (f : State → State) :
    regCmd o r c f s = .next (settle (logIf o r s (f s))) := hostGate_live h c _

theorem wired_churnGate {n : Nat} {c : Instr} {f : State → Out} {s : State} (h : wired s = true) (hf : Wired (f s)) :
    Wired (churnGate n c f s) := by
  refine wired_hostGate h ?_; split
  · exact hf
  · exact wired_done _

theorem wired_chanGate {i : ChanId} {c : Instr} {f : State → State} {s : State} (h : wired s = true) :
    Wired (chanGate i c f s) := by
  unfold chanGate; split
  · exact wired_hostGate h (wired_done _)
  · exact wired_churnGate h (wired_done _)

theorem wired_ccpIn {h : Word} {f : State → State} {c : Instr} {s : State} (k : wired s = true) : Wired (ccpIn h f c s) := by
  refine wired_hostGate k ?_; split
  · exact wired_next k
  · exact wired_done _

theorem wired_targetGate {p : PortId} {c : Instr} {r : Req} {f : State → State} {s : State} (h : wired s = true) :
    Wired (targetGate p c r f s) := by
  refine wired_hostGate h ?_; split
  · exact wired_next h
  · exact wired_done _

theorem wired_trap (k : Nat) (i : Option (BitVec 32)) (e : Option Nat) (sw : Bool) (s : State) :
    wired (takeTrap k i e sw s) = true := by unfold takeTrap; exact settle_wired _

theorem wired_advance (s0 s : State) : Wired (advance s0 s) := by
  unfold advance; split
  · exact wired_next (wired_trap ..)
  · exact wired_settle _

theorem wired_issue {i : Instr} {g : Guard} {b : State → SepRes} {s : State} (h : wired s = true) : Wired (issue i g b s) := by
  unfold issue
  repeat' split
  · exact wired_next h
  · exact wired_next (wired_trap ..)
  · exact wired_advance _ _
  · exact wired_advance _ _
  · exact wired_settle _
  · exact wired_settle _
  · exact wired_next (wired_trap ..)

end Sys2Proof.Machine
end

