-- ==== Sys2Proof/Laws/Issue.lean ====
section
/-! SUPPORT. Everything the issue of an instruction can do (R83 to R85, R91, R109), and what a trap leaves (R109, R110). -/

namespace Sys2Proof.Machine

variable {i : Instr} {g : Guard} {b : State → SepRes} {s x : State}

/-- The pc moves on. -/
theorem advance_on (h : s.sep.pc ≠ 32767) : advance s x = .next (retired s x) := if_neg h

/-- The pc cannot move on. -/
theorem advance_last (h : s.sep.pc = 32767) : advance s x = .next (takeTrap 0x14 none none false s) := if_pos h

/-- An instruction that completes. -/
theorem issue_done (h : Issues i g s) (hb : b s = .done x) : issue i g b s = .next (retired s x) := by
  obtain ⟨h1, h2, h3, h4⟩ := h
  simp [issue, h1, h2, h3, hb, advance_on h4]

/-- An instruction that goes on elsewhere. -/
theorem issue_goto {pc : BitVec 15} (h1 : canIssue i s = true) (h2 : wf i = true) (h3 : guardOk g s = true)
    (hb : b s = .goto x pc) : issue i g b s = .next (jumped pc x) := by
  simp [issue, h1, h2, h3, hb, jumped]

/-- An instruction that holds issue. -/
theorem issue_wait {c : Nat} (h1 : canIssue i s = true) (h2 : wf i = true) (h3 : guardOk g s = true)
    (hb : b s = .wait c x) : issue i g b s = .next (holds i c x) := by
  simp [issue, h1, h2, h3, hb, holds]

/-- An instruction that traps. -/
theorem issue_trap {c : Nat} {info : Option (BitVec 32)} {e : Option Nat} {sw : Bool} (h1 : canIssue i s = true)
    (h2 : wf i = true) (h3 : guardOk g s = true) (hb : b s = .trap c info e sw) :
    issue i g b s = .next (takeTrap c info e sw s) := by
  simp [issue, h1, h2, h3, hb]

/-- An instruction that cannot issue. -/
theorem issue_blocked (h : canIssue i s = false) : issue i g b s = .next s := by simp [issue, h]

/-- An illegal instruction. -/
theorem issue_illegal (h : canIssue i s = true) (h2 : wf i = false) : issue i g b s = .next (takeTrap 0x14 none none false s) := by
  simp [issue, h, h2]

/-- An instruction whose guard is 0. -/
theorem issue_skip (h : canIssue i s = true) (h2 : wf i = true) (h3 : guardOk g s = false) (h4 : s.sep.pc ≠ 32767) :
    issue i g b s = .next (retired s s) := by
  simp [issue, h, h2, h3, advance_on h4]

/-- An instruction that would go on past the last index. -/
theorem issue_last (h : canIssue i s = true) (h2 : wf i = true) (h4 : s.sep.pc = 32767)
    (h3 : guardOk g s = false ∨ b s = .done x) : issue i g b s = .next (takeTrap 0x14 none none false s) := by
  by_cases hg : guardOk g s = true
  · have hb : b s = .done x := by simpa [hg] using h3
    simp [issue, h, h2, hg, hb, advance_last h4]
  · simp [issue, h, h2, hg, advance_last h4]

/-- A register form. -/
theorem aluR_done {f : Word → Word → Word} {d a c : BitVec 6} (h : Issues i g s) :
    aluR i g f d a c s = .next (retired s (gW d (f (gR s a) (gR s c)) s)) := issue_done h rfl

/-- An immediate form. -/
theorem aluI_done {f : Word → Word → Word} {d a : BitVec 6} {imm : BitVec 36} (h : Issues i g s) :
    aluI i g f d a imm s = .next (retired s (gW d (f (gR s a) (imm36 imm)) s)) := issue_done h rfl

/-- A compare. -/
theorem cmpR_done {f : Word → Word → Bool} {d : BitVec 3} {a c : BitVec 6} (h : Issues i g s) :
    cmpR i g f d a c s = .next (retired s (pW d (f (gR s a) (gR s c)) s)) := issue_done h rfl

/-- A predicate operation. -/
theorem prdR_done {f : Bool → Bool → Bool} {d p q : BitVec 3} (h : Issues i g s) :
    prdR i g f d p q s = .next (retired s (pW d (f (pR s p) (pR s q)) s)) := issue_done h rfl

/-- What `issue` answers, in every case. -/
theorem issue_cases (i : Instr) (g : Guard) (b : State → SepRes) (s : State) : ∃ t, issue i g b s = .next t := by
  unfold issue advance
  repeat' split
  all_goals exact ⟨_, rfl⟩

end Sys2Proof.Machine
end

