-- ==== Sys2Proof/Laws/Maps.lean ====
section
/-! SUPPORT. Sparse maps and vectors: a read after a write, and that every operation keeps the canonical form. -/

namespace Sys2Proof.Machine

variable {α : Type} [DecidableEq α]

/-- A map of keys from `b` on holds nothing below `b`. -/
theorem mget_below {d : α} {m : SMap α} {b k : Nat} (h : mwfFrom d b m = true) (hk : k < b) : mget d m k = d := by
  induction m generalizing b with
  | nil => rfl
  | cons x r ih =>
    obtain ⟨k', v⟩ := x
    simp only [mwfFrom, Bool.and_eq_true, decide_eq_true_eq] at h
    have : k' ≠ k := by omega
    simp only [mget, this, if_false]
    exact ih h.2 (by omega)

/-- The canonical form, from a lower bound. -/
theorem mwfFrom_mono {d : α} {m : SMap α} {b c : Nat} (h : mwfFrom d b m = true) (hc : c ≤ b) : mwfFrom d c m = true := by
  cases m with
  | nil => rfl
  | cons x r =>
    simp only [mwfFrom, Bool.and_eq_true, decide_eq_true_eq] at h ⊢
    exact ⟨⟨by omega, h.1.2⟩, h.2⟩

/-- A write at a key not below the bound keeps the canonical form from that bound on. -/
theorem mwfFrom_mset {d : α} {m : SMap α} {b k : Nat} {v : α} (h : mwfFrom d b m = true) (hk : b ≤ k) :
    mwfFrom d b (mset d m k v) = true := by
  induction m generalizing b with
  | nil => by_cases hv : v = d <;> simp [mset, mwfFrom, hv, hk]
  | cons x r ih =>
    obtain ⟨k', v'⟩ := x
    simp only [mwfFrom, Bool.and_eq_true, decide_eq_true_eq] at h
    obtain ⟨⟨h1, h2⟩, h3⟩ := h
    simp only [mset]
    split
    · by_cases hv : v = d
      · simp [hv, mwfFrom, h1, h2, h3]
      · have : k + 1 ≤ k' := by omega
        simp [hv, mwfFrom, h2, h3, hk, this]
    · split
      · by_cases hv : v = d
        · simp only [hv, if_true]; exact mwfFrom_mono h3 (by omega)
        · subst_vars; simp [hv, mwfFrom, hk, h3]
      · simp only [mwfFrom, Bool.and_eq_true, decide_eq_true_eq]
        exact ⟨⟨h1, h2⟩, ih h3 (by omega)⟩

/-- A write keeps the canonical form. -/
theorem mwf_mset {d : α} {m : SMap α} {k : Nat} {v : α} (h : mwf d m = true) : mwf d (mset d m k v) = true :=
  mwfFrom_mset h (Nat.zero_le k)

/-- A read of the key just written. -/
theorem mget_mset_same {d : α} {m : SMap α} {b k : Nat} {v : α} (h : mwfFrom d b m = true) : mget d (mset d m k v) k = v := by
  induction m generalizing b with
  | nil => by_cases hv : v = d <;> simp [mset, mget, hv]
  | cons x r ih =>
    obtain ⟨k', v'⟩ := x
    simp only [mwfFrom, Bool.and_eq_true, decide_eq_true_eq] at h
    obtain ⟨⟨h1, h2⟩, h3⟩ := h
    simp only [mset]
    split
    · by_cases hv : v = d
      · have hk : k' ≠ k := by omega
        simp [hv, mget, hk, mget_below h3 (show k < k' + 1 by omega)]
      · simp [hv, mget]
    · split
      · next hk =>
        by_cases hv : v = d
        · simp only [hv, if_true]; exact mget_below h3 (by omega)
        · simp [hv, mget]
      · have hk : k' ≠ k := by omega
        simp [mget, hk, ih h3]

/-- A read of another key than the one written. -/
theorem mget_mset_ne {d : α} {m : SMap α} {k j : Nat} {v : α} (h : j ≠ k) : mget d (mset d m k v) j = mget d m j := by
  induction m with
  | nil =>
    by_cases hv : v = d
    · simp [mset, hv]
    · simp [mset, mget, hv, Ne.symm h]
  | cons x r ih =>
    obtain ⟨k', v'⟩ := x
    simp only [mset]
    split
    · by_cases hv : v = d
      · simp [hv]
      · simp [hv, mget, Ne.symm h]
    · split
      · by_cases hv : v = d
        · subst_vars; simp [mget, Ne.symm h]
        · subst_vars; simp [hv, mget, Ne.symm h]
      · by_cases hk : k' = j <;> simp [mget, hk, ih]

/-- A read of the vector element just written. -/
@[simp] theorem vget_vset_same {β : Type} {n : Nat} (d : β) (v : Vector β n) (i : Nat) (x : β) (h : i < n) :
    vget d (vset v i x) i = x := by
  simp [vget, vset, Vector.getD, h]

/-- A read of another vector element than the one written. -/
@[simp] theorem vget_vset_ne {β : Type} {n : Nat} (d : β) (v : Vector β n) (i j : Nat) (x : β) (h : i ≠ j) :
    vget d (vset v i x) j = vget d v j := by
  obtain ⟨a, ha⟩ := v
  simp [vget, vset, Vector.getD, Vector.setIfInBounds, Array.getD_eq_getD_getElem?, h]

/-- Every element of a vector of one value. -/
@[simp] theorem vget_replicate {β : Type} {n : Nat} (d : β) (i : Nat) : vget d (Vector.replicate n d) i = d := by
  simp only [vget, Vector.getD]
  by_cases h : i < n <;> simp [h]

end Sys2Proof.Machine
end

