-- ==== Sys2Proof/Laws/State.lean ====
section
/-! SUPPORT. What each update of the state leaves: one lemma for each field and update, so that no proof unfolds a record. -/

namespace Sys2Proof.Machine

variable (s : State)

/-! ## setChurn -/

@[simp] theorem setChurn_pending (n : Nat) (c : Churn) : (setChurn s n c).pending = s.pending := rfl
@[simp] theorem setChurn_bridges (n : Nat) (c : Churn) : (setChurn s n c).bridges = s.bridges := rfl
@[simp] theorem setChurn_regs (n : Nat) (c : Churn) : (setChurn s n c).regs = s.regs := rfl
@[simp] theorem setChurn_sep (n : Nat) (c : Churn) : (setChurn s n c).sep = s.sep := rfl
@[simp] theorem setChurn_imem (n : Nat) (c : Churn) : (setChurn s n c).imem = s.imem := rfl
@[simp] theorem setChurn_dmem (n : Nat) (c : Churn) : (setChurn s n c).dmem = s.dmem := rfl
@[simp] theorem setChurn_tickets (n : Nat) (c : Churn) : (setChurn s n c).tickets = s.tickets := rfl
@[simp] theorem setChurn_deferred (n : Nat) (c : Churn) : (setChurn s n c).deferred = s.deferred := rfl
@[simp] theorem setChurn_dir (n : Nat) (c : Churn) : (setChurn s n c).dir = s.dir := rfl
@[simp] theorem setChurn_cold (n : Nat) (c : Churn) : (setChurn s n c).cold = s.cold := rfl
@[simp] theorem setChurn_ladder (n : Nat) (c : Churn) : (setChurn s n c).ladder = s.ladder := rfl
@[simp] theorem setChurn_tasks (n : Nat) (c : Churn) : (setChurn s n c).tasks = s.tasks := rfl
@[simp] theorem setChurn_flits (n : Nat) (c : Churn) : (setChurn s n c).flits = s.flits := rfl
@[simp] theorem setChurn_ctxs (n : Nat) (c : Churn) : (setChurn s n c).ctxs = s.ctxs := rfl
@[simp] theorem setChurn_pairs (n : Nat) (c : Churn) : (setChurn s n c).pairs = s.pairs := rfl
@[simp] theorem setChurn_hub (n : Nat) (c : Churn) : (setChurn s n c).hub = s.hub := rfl
@[simp] theorem setChurn_rings (n : Nat) (c : Churn) : (setChurn s n c).rings = s.rings := rfl
@[simp] theorem setChurn_readback (n : Nat) (c : Churn) : (setChurn s n c).readback = s.readback := rfl
@[simp] theorem setChurn_ports (n : Nat) (c : Churn) : (setChurn s n c).ports = s.ports := rfl
@[simp] theorem setChurn_inflight (n : Nat) (c : Churn) : (setChurn s n c).inflight = s.inflight := rfl
@[simp] theorem setChurn_txq (n : Nat) (c : Churn) : (setChurn s n c).txq = s.txq := rfl
@[simp] theorem setChurn_sent (n : Nat) (c : Churn) : (setChurn s n c).sent = s.sent := rfl
@[simp] theorem setChurn_holds (n : Nat) (c : Churn) : (setChurn s n c).holds = s.holds := rfl
@[simp] theorem setChurn_step (n : Nat) (c : Churn) : (setChurn s n c).step = s.step := rfl
@[simp] theorem setChurn_snap (n : Nat) (c : Churn) : (setChurn s n c).snap = s.snap := rfl
@[simp] theorem setChurn_keys (n : Nat) (c : Churn) : (setChurn s n c).keys = s.keys := rfl
@[simp] theorem setChurn_nv (n : Nat) (c : Churn) : (setChurn s n c).nv = s.nv := rfl
@[simp] theorem setChurn_log (n : Nat) (c : Churn) : (setChurn s n c).log = s.log := rfl
@[simp] theorem setChurn_sys (n : Nat) (c : Churn) : (setChurn s n c).sys = s.sys := rfl
@[simp] theorem setChurn_flt (n : Nat) (c : Churn) : (setChurn s n c).flt = s.flt := rfl
@[simp] theorem setChurn_flts (n : Nat) (c : Churn) : (setChurn s n c).flts = s.flts := rfl
@[simp] theorem setChurn_fltWas (n : Nat) (c : Churn) : (setChurn s n c).fltWas = s.fltWas := rfl
@[simp] theorem setChurn_hubLast (n : Nat) (c : Churn) : (setChurn s n c).hubLast = s.hubLast := rfl

/-! ## setEnt -/

@[simp] theorem setEnt_pending (e : Nat) (x : Entry) : (setEnt s e x).pending = s.pending := rfl
@[simp] theorem setEnt_bridges (e : Nat) (x : Entry) : (setEnt s e x).bridges = s.bridges := rfl
@[simp] theorem setEnt_regs (e : Nat) (x : Entry) : (setEnt s e x).regs = s.regs := rfl
@[simp] theorem setEnt_sep (e : Nat) (x : Entry) : (setEnt s e x).sep = s.sep := rfl
@[simp] theorem setEnt_imem (e : Nat) (x : Entry) : (setEnt s e x).imem = s.imem := rfl
@[simp] theorem setEnt_dmem (e : Nat) (x : Entry) : (setEnt s e x).dmem = s.dmem := rfl
@[simp] theorem setEnt_tickets (e : Nat) (x : Entry) : (setEnt s e x).tickets = s.tickets := rfl
@[simp] theorem setEnt_deferred (e : Nat) (x : Entry) : (setEnt s e x).deferred = s.deferred := rfl
@[simp] theorem setEnt_cold (e : Nat) (x : Entry) : (setEnt s e x).cold = s.cold := rfl
@[simp] theorem setEnt_ladder (e : Nat) (x : Entry) : (setEnt s e x).ladder = s.ladder := rfl
@[simp] theorem setEnt_churns (e : Nat) (x : Entry) : (setEnt s e x).churns = s.churns := rfl
@[simp] theorem setEnt_tasks (e : Nat) (x : Entry) : (setEnt s e x).tasks = s.tasks := rfl
@[simp] theorem setEnt_flits (e : Nat) (x : Entry) : (setEnt s e x).flits = s.flits := rfl
@[simp] theorem setEnt_ctxs (e : Nat) (x : Entry) : (setEnt s e x).ctxs = s.ctxs := rfl
@[simp] theorem setEnt_pairs (e : Nat) (x : Entry) : (setEnt s e x).pairs = s.pairs := rfl
@[simp] theorem setEnt_hub (e : Nat) (x : Entry) : (setEnt s e x).hub = s.hub := rfl
@[simp] theorem setEnt_rings (e : Nat) (x : Entry) : (setEnt s e x).rings = s.rings := rfl
@[simp] theorem setEnt_readback (e : Nat) (x : Entry) : (setEnt s e x).readback = s.readback := rfl
@[simp] theorem setEnt_ports (e : Nat) (x : Entry) : (setEnt s e x).ports = s.ports := rfl
@[simp] theorem setEnt_inflight (e : Nat) (x : Entry) : (setEnt s e x).inflight = s.inflight := rfl
@[simp] theorem setEnt_txq (e : Nat) (x : Entry) : (setEnt s e x).txq = s.txq := rfl
@[simp] theorem setEnt_sent (e : Nat) (x : Entry) : (setEnt s e x).sent = s.sent := rfl
@[simp] theorem setEnt_holds (e : Nat) (x : Entry) : (setEnt s e x).holds = s.holds := rfl
@[simp] theorem setEnt_step (e : Nat) (x : Entry) : (setEnt s e x).step = s.step := rfl
@[simp] theorem setEnt_snap (e : Nat) (x : Entry) : (setEnt s e x).snap = s.snap := rfl
@[simp] theorem setEnt_keys (e : Nat) (x : Entry) : (setEnt s e x).keys = s.keys := rfl
@[simp] theorem setEnt_nv (e : Nat) (x : Entry) : (setEnt s e x).nv = s.nv := rfl
@[simp] theorem setEnt_log (e : Nat) (x : Entry) : (setEnt s e x).log = s.log := rfl
@[simp] theorem setEnt_sys (e : Nat) (x : Entry) : (setEnt s e x).sys = s.sys := rfl
@[simp] theorem setEnt_flt (e : Nat) (x : Entry) : (setEnt s e x).flt = s.flt := rfl
@[simp] theorem setEnt_flts (e : Nat) (x : Entry) : (setEnt s e x).flts = s.flts := rfl
@[simp] theorem setEnt_fltWas (e : Nat) (x : Entry) : (setEnt s e x).fltWas = s.fltWas := rfl
@[simp] theorem setEnt_hubLast (e : Nat) (x : Entry) : (setEnt s e x).hubLast = s.hubLast := rfl

/-! ## setCtx -/

@[simp] theorem setCtx_pending (i : Nat) (c : Ctx) : (setCtx s i c).pending = s.pending := rfl
@[simp] theorem setCtx_bridges (i : Nat) (c : Ctx) : (setCtx s i c).bridges = s.bridges := rfl
@[simp] theorem setCtx_regs (i : Nat) (c : Ctx) : (setCtx s i c).regs = s.regs := rfl
@[simp] theorem setCtx_sep (i : Nat) (c : Ctx) : (setCtx s i c).sep = s.sep := rfl
@[simp] theorem setCtx_imem (i : Nat) (c : Ctx) : (setCtx s i c).imem = s.imem := rfl
@[simp] theorem setCtx_dmem (i : Nat) (c : Ctx) : (setCtx s i c).dmem = s.dmem := rfl
@[simp] theorem setCtx_tickets (i : Nat) (c : Ctx) : (setCtx s i c).tickets = s.tickets := rfl
@[simp] theorem setCtx_deferred (i : Nat) (c : Ctx) : (setCtx s i c).deferred = s.deferred := rfl
@[simp] theorem setCtx_dir (i : Nat) (c : Ctx) : (setCtx s i c).dir = s.dir := rfl
@[simp] theorem setCtx_cold (i : Nat) (c : Ctx) : (setCtx s i c).cold = s.cold := rfl
@[simp] theorem setCtx_ladder (i : Nat) (c : Ctx) : (setCtx s i c).ladder = s.ladder := rfl
@[simp] theorem setCtx_churns (i : Nat) (c : Ctx) : (setCtx s i c).churns = s.churns := rfl
@[simp] theorem setCtx_tasks (i : Nat) (c : Ctx) : (setCtx s i c).tasks = s.tasks := rfl
@[simp] theorem setCtx_flits (i : Nat) (c : Ctx) : (setCtx s i c).flits = s.flits := rfl
@[simp] theorem setCtx_pairs (i : Nat) (c : Ctx) : (setCtx s i c).pairs = s.pairs := rfl
@[simp] theorem setCtx_hub (i : Nat) (c : Ctx) : (setCtx s i c).hub = s.hub := rfl
@[simp] theorem setCtx_rings (i : Nat) (c : Ctx) : (setCtx s i c).rings = s.rings := rfl
@[simp] theorem setCtx_readback (i : Nat) (c : Ctx) : (setCtx s i c).readback = s.readback := rfl
@[simp] theorem setCtx_ports (i : Nat) (c : Ctx) : (setCtx s i c).ports = s.ports := rfl
@[simp] theorem setCtx_inflight (i : Nat) (c : Ctx) : (setCtx s i c).inflight = s.inflight := rfl
@[simp] theorem setCtx_txq (i : Nat) (c : Ctx) : (setCtx s i c).txq = s.txq := rfl
@[simp] theorem setCtx_sent (i : Nat) (c : Ctx) : (setCtx s i c).sent = s.sent := rfl
@[simp] theorem setCtx_holds (i : Nat) (c : Ctx) : (setCtx s i c).holds = s.holds := rfl
@[simp] theorem setCtx_step (i : Nat) (c : Ctx) : (setCtx s i c).step = s.step := rfl
@[simp] theorem setCtx_snap (i : Nat) (c : Ctx) : (setCtx s i c).snap = s.snap := rfl
@[simp] theorem setCtx_keys (i : Nat) (c : Ctx) : (setCtx s i c).keys = s.keys := rfl
@[simp] theorem setCtx_nv (i : Nat) (c : Ctx) : (setCtx s i c).nv = s.nv := rfl
@[simp] theorem setCtx_log (i : Nat) (c : Ctx) : (setCtx s i c).log = s.log := rfl
@[simp] theorem setCtx_sys (i : Nat) (c : Ctx) : (setCtx s i c).sys = s.sys := rfl
@[simp] theorem setCtx_flt (i : Nat) (c : Ctx) : (setCtx s i c).flt = s.flt := rfl
@[simp] theorem setCtx_flts (i : Nat) (c : Ctx) : (setCtx s i c).flts = s.flts := rfl
@[simp] theorem setCtx_fltWas (i : Nat) (c : Ctx) : (setCtx s i c).fltWas = s.fltWas := rfl
@[simp] theorem setCtx_hubLast (i : Nat) (c : Ctx) : (setCtx s i c).hubLast = s.hubLast := rfl

/-! ## setPair -/

@[simp] theorem setPair_pending (p : Nat) (x : Pair) : (setPair s p x).pending = s.pending := rfl
@[simp] theorem setPair_bridges (p : Nat) (x : Pair) : (setPair s p x).bridges = s.bridges := rfl
@[simp] theorem setPair_regs (p : Nat) (x : Pair) : (setPair s p x).regs = s.regs := rfl
@[simp] theorem setPair_sep (p : Nat) (x : Pair) : (setPair s p x).sep = s.sep := rfl
@[simp] theorem setPair_imem (p : Nat) (x : Pair) : (setPair s p x).imem = s.imem := rfl
@[simp] theorem setPair_dmem (p : Nat) (x : Pair) : (setPair s p x).dmem = s.dmem := rfl
@[simp] theorem setPair_tickets (p : Nat) (x : Pair) : (setPair s p x).tickets = s.tickets := rfl
@[simp] theorem setPair_deferred (p : Nat) (x : Pair) : (setPair s p x).deferred = s.deferred := rfl
@[simp] theorem setPair_dir (p : Nat) (x : Pair) : (setPair s p x).dir = s.dir := rfl
@[simp] theorem setPair_cold (p : Nat) (x : Pair) : (setPair s p x).cold = s.cold := rfl
@[simp] theorem setPair_ladder (p : Nat) (x : Pair) : (setPair s p x).ladder = s.ladder := rfl
@[simp] theorem setPair_churns (p : Nat) (x : Pair) : (setPair s p x).churns = s.churns := rfl
@[simp] theorem setPair_tasks (p : Nat) (x : Pair) : (setPair s p x).tasks = s.tasks := rfl
@[simp] theorem setPair_flits (p : Nat) (x : Pair) : (setPair s p x).flits = s.flits := rfl
@[simp] theorem setPair_ctxs (p : Nat) (x : Pair) : (setPair s p x).ctxs = s.ctxs := rfl
@[simp] theorem setPair_hub (p : Nat) (x : Pair) : (setPair s p x).hub = s.hub := rfl
@[simp] theorem setPair_rings (p : Nat) (x : Pair) : (setPair s p x).rings = s.rings := rfl
@[simp] theorem setPair_readback (p : Nat) (x : Pair) : (setPair s p x).readback = s.readback := rfl
@[simp] theorem setPair_ports (p : Nat) (x : Pair) : (setPair s p x).ports = s.ports := rfl
@[simp] theorem setPair_inflight (p : Nat) (x : Pair) : (setPair s p x).inflight = s.inflight := rfl
@[simp] theorem setPair_txq (p : Nat) (x : Pair) : (setPair s p x).txq = s.txq := rfl
@[simp] theorem setPair_sent (p : Nat) (x : Pair) : (setPair s p x).sent = s.sent := rfl
@[simp] theorem setPair_holds (p : Nat) (x : Pair) : (setPair s p x).holds = s.holds := rfl
@[simp] theorem setPair_step (p : Nat) (x : Pair) : (setPair s p x).step = s.step := rfl
@[simp] theorem setPair_snap (p : Nat) (x : Pair) : (setPair s p x).snap = s.snap := rfl
@[simp] theorem setPair_keys (p : Nat) (x : Pair) : (setPair s p x).keys = s.keys := rfl
@[simp] theorem setPair_nv (p : Nat) (x : Pair) : (setPair s p x).nv = s.nv := rfl
@[simp] theorem setPair_log (p : Nat) (x : Pair) : (setPair s p x).log = s.log := rfl
@[simp] theorem setPair_sys (p : Nat) (x : Pair) : (setPair s p x).sys = s.sys := rfl
@[simp] theorem setPair_flt (p : Nat) (x : Pair) : (setPair s p x).flt = s.flt := rfl
@[simp] theorem setPair_flts (p : Nat) (x : Pair) : (setPair s p x).flts = s.flts := rfl
@[simp] theorem setPair_fltWas (p : Nat) (x : Pair) : (setPair s p x).fltWas = s.fltWas := rfl
@[simp] theorem setPair_hubLast (p : Nat) (x : Pair) : (setPair s p x).hubLast = s.hubLast := rfl

/-! ## setTicket -/

@[simp] theorem setTicket_pending (i : Nat) (x : Ticket) : (setTicket s i x).pending = s.pending := rfl
@[simp] theorem setTicket_bridges (i : Nat) (x : Ticket) : (setTicket s i x).bridges = s.bridges := rfl
@[simp] theorem setTicket_regs (i : Nat) (x : Ticket) : (setTicket s i x).regs = s.regs := rfl
@[simp] theorem setTicket_sep (i : Nat) (x : Ticket) : (setTicket s i x).sep = s.sep := rfl
@[simp] theorem setTicket_imem (i : Nat) (x : Ticket) : (setTicket s i x).imem = s.imem := rfl
@[simp] theorem setTicket_dmem (i : Nat) (x : Ticket) : (setTicket s i x).dmem = s.dmem := rfl
@[simp] theorem setTicket_deferred (i : Nat) (x : Ticket) : (setTicket s i x).deferred = s.deferred := rfl
@[simp] theorem setTicket_dir (i : Nat) (x : Ticket) : (setTicket s i x).dir = s.dir := rfl
@[simp] theorem setTicket_cold (i : Nat) (x : Ticket) : (setTicket s i x).cold = s.cold := rfl
@[simp] theorem setTicket_ladder (i : Nat) (x : Ticket) : (setTicket s i x).ladder = s.ladder := rfl
@[simp] theorem setTicket_churns (i : Nat) (x : Ticket) : (setTicket s i x).churns = s.churns := rfl
@[simp] theorem setTicket_tasks (i : Nat) (x : Ticket) : (setTicket s i x).tasks = s.tasks := rfl
@[simp] theorem setTicket_flits (i : Nat) (x : Ticket) : (setTicket s i x).flits = s.flits := rfl
@[simp] theorem setTicket_ctxs (i : Nat) (x : Ticket) : (setTicket s i x).ctxs = s.ctxs := rfl
@[simp] theorem setTicket_pairs (i : Nat) (x : Ticket) : (setTicket s i x).pairs = s.pairs := rfl
@[simp] theorem setTicket_hub (i : Nat) (x : Ticket) : (setTicket s i x).hub = s.hub := rfl
@[simp] theorem setTicket_rings (i : Nat) (x : Ticket) : (setTicket s i x).rings = s.rings := rfl
@[simp] theorem setTicket_readback (i : Nat) (x : Ticket) : (setTicket s i x).readback = s.readback := rfl
@[simp] theorem setTicket_ports (i : Nat) (x : Ticket) : (setTicket s i x).ports = s.ports := rfl
@[simp] theorem setTicket_inflight (i : Nat) (x : Ticket) : (setTicket s i x).inflight = s.inflight := rfl
@[simp] theorem setTicket_txq (i : Nat) (x : Ticket) : (setTicket s i x).txq = s.txq := rfl
@[simp] theorem setTicket_sent (i : Nat) (x : Ticket) : (setTicket s i x).sent = s.sent := rfl
@[simp] theorem setTicket_holds (i : Nat) (x : Ticket) : (setTicket s i x).holds = s.holds := rfl
@[simp] theorem setTicket_step (i : Nat) (x : Ticket) : (setTicket s i x).step = s.step := rfl
@[simp] theorem setTicket_snap (i : Nat) (x : Ticket) : (setTicket s i x).snap = s.snap := rfl
@[simp] theorem setTicket_keys (i : Nat) (x : Ticket) : (setTicket s i x).keys = s.keys := rfl
@[simp] theorem setTicket_nv (i : Nat) (x : Ticket) : (setTicket s i x).nv = s.nv := rfl
@[simp] theorem setTicket_log (i : Nat) (x : Ticket) : (setTicket s i x).log = s.log := rfl
@[simp] theorem setTicket_sys (i : Nat) (x : Ticket) : (setTicket s i x).sys = s.sys := rfl
@[simp] theorem setTicket_flt (i : Nat) (x : Ticket) : (setTicket s i x).flt = s.flt := rfl
@[simp] theorem setTicket_flts (i : Nat) (x : Ticket) : (setTicket s i x).flts = s.flts := rfl
@[simp] theorem setTicket_fltWas (i : Nat) (x : Ticket) : (setTicket s i x).fltWas = s.fltWas := rfl
@[simp] theorem setTicket_hubLast (i : Nat) (x : Ticket) : (setTicket s i x).hubLast = s.hubLast := rfl

/-! ## setPort -/

@[simp] theorem setPort_pending (p : PortId) (x : Port) : (setPort s p x).pending = s.pending := rfl
@[simp] theorem setPort_bridges (p : PortId) (x : Port) : (setPort s p x).bridges = s.bridges := rfl
@[simp] theorem setPort_regs (p : PortId) (x : Port) : (setPort s p x).regs = s.regs := rfl
@[simp] theorem setPort_sep (p : PortId) (x : Port) : (setPort s p x).sep = s.sep := rfl
@[simp] theorem setPort_imem (p : PortId) (x : Port) : (setPort s p x).imem = s.imem := rfl
@[simp] theorem setPort_dmem (p : PortId) (x : Port) : (setPort s p x).dmem = s.dmem := rfl
@[simp] theorem setPort_tickets (p : PortId) (x : Port) : (setPort s p x).tickets = s.tickets := rfl
@[simp] theorem setPort_deferred (p : PortId) (x : Port) : (setPort s p x).deferred = s.deferred := rfl
@[simp] theorem setPort_dir (p : PortId) (x : Port) : (setPort s p x).dir = s.dir := rfl
@[simp] theorem setPort_cold (p : PortId) (x : Port) : (setPort s p x).cold = s.cold := rfl
@[simp] theorem setPort_ladder (p : PortId) (x : Port) : (setPort s p x).ladder = s.ladder := rfl
@[simp] theorem setPort_churns (p : PortId) (x : Port) : (setPort s p x).churns = s.churns := rfl
@[simp] theorem setPort_tasks (p : PortId) (x : Port) : (setPort s p x).tasks = s.tasks := rfl
@[simp] theorem setPort_flits (p : PortId) (x : Port) : (setPort s p x).flits = s.flits := rfl
@[simp] theorem setPort_ctxs (p : PortId) (x : Port) : (setPort s p x).ctxs = s.ctxs := rfl
@[simp] theorem setPort_pairs (p : PortId) (x : Port) : (setPort s p x).pairs = s.pairs := rfl
@[simp] theorem setPort_hub (p : PortId) (x : Port) : (setPort s p x).hub = s.hub := rfl
@[simp] theorem setPort_rings (p : PortId) (x : Port) : (setPort s p x).rings = s.rings := rfl
@[simp] theorem setPort_readback (p : PortId) (x : Port) : (setPort s p x).readback = s.readback := rfl
@[simp] theorem setPort_inflight (p : PortId) (x : Port) : (setPort s p x).inflight = s.inflight := rfl
@[simp] theorem setPort_txq (p : PortId) (x : Port) : (setPort s p x).txq = s.txq := rfl
@[simp] theorem setPort_sent (p : PortId) (x : Port) : (setPort s p x).sent = s.sent := rfl
@[simp] theorem setPort_holds (p : PortId) (x : Port) : (setPort s p x).holds = s.holds := rfl
@[simp] theorem setPort_step (p : PortId) (x : Port) : (setPort s p x).step = s.step := rfl
@[simp] theorem setPort_snap (p : PortId) (x : Port) : (setPort s p x).snap = s.snap := rfl
@[simp] theorem setPort_keys (p : PortId) (x : Port) : (setPort s p x).keys = s.keys := rfl
@[simp] theorem setPort_nv (p : PortId) (x : Port) : (setPort s p x).nv = s.nv := rfl
@[simp] theorem setPort_log (p : PortId) (x : Port) : (setPort s p x).log = s.log := rfl
@[simp] theorem setPort_sys (p : PortId) (x : Port) : (setPort s p x).sys = s.sys := rfl
@[simp] theorem setPort_flt (p : PortId) (x : Port) : (setPort s p x).flt = s.flt := rfl
@[simp] theorem setPort_flts (p : PortId) (x : Port) : (setPort s p x).flts = s.flts := rfl
@[simp] theorem setPort_fltWas (p : PortId) (x : Port) : (setPort s p x).fltWas = s.fltWas := rfl
@[simp] theorem setPort_hubLast (p : PortId) (x : Port) : (setPort s p x).hubLast = s.hubLast := rfl

/-! ## modRing -/

@[simp] theorem modRing_pending (r : Nat) (f : Ring → Ring) : (modRing r f s).pending = s.pending := rfl
@[simp] theorem modRing_bridges (r : Nat) (f : Ring → Ring) : (modRing r f s).bridges = s.bridges := rfl
@[simp] theorem modRing_regs (r : Nat) (f : Ring → Ring) : (modRing r f s).regs = s.regs := rfl
@[simp] theorem modRing_sep (r : Nat) (f : Ring → Ring) : (modRing r f s).sep = s.sep := rfl
@[simp] theorem modRing_imem (r : Nat) (f : Ring → Ring) : (modRing r f s).imem = s.imem := rfl
@[simp] theorem modRing_dmem (r : Nat) (f : Ring → Ring) : (modRing r f s).dmem = s.dmem := rfl
@[simp] theorem modRing_tickets (r : Nat) (f : Ring → Ring) : (modRing r f s).tickets = s.tickets := rfl
@[simp] theorem modRing_deferred (r : Nat) (f : Ring → Ring) : (modRing r f s).deferred = s.deferred := rfl
@[simp] theorem modRing_dir (r : Nat) (f : Ring → Ring) : (modRing r f s).dir = s.dir := rfl
@[simp] theorem modRing_cold (r : Nat) (f : Ring → Ring) : (modRing r f s).cold = s.cold := rfl
@[simp] theorem modRing_ladder (r : Nat) (f : Ring → Ring) : (modRing r f s).ladder = s.ladder := rfl
@[simp] theorem modRing_churns (r : Nat) (f : Ring → Ring) : (modRing r f s).churns = s.churns := rfl
@[simp] theorem modRing_tasks (r : Nat) (f : Ring → Ring) : (modRing r f s).tasks = s.tasks := rfl
@[simp] theorem modRing_flits (r : Nat) (f : Ring → Ring) : (modRing r f s).flits = s.flits := rfl
@[simp] theorem modRing_ctxs (r : Nat) (f : Ring → Ring) : (modRing r f s).ctxs = s.ctxs := rfl
@[simp] theorem modRing_pairs (r : Nat) (f : Ring → Ring) : (modRing r f s).pairs = s.pairs := rfl
@[simp] theorem modRing_hub (r : Nat) (f : Ring → Ring) : (modRing r f s).hub = s.hub := rfl
@[simp] theorem modRing_readback (r : Nat) (f : Ring → Ring) : (modRing r f s).readback = s.readback := rfl
@[simp] theorem modRing_ports (r : Nat) (f : Ring → Ring) : (modRing r f s).ports = s.ports := rfl
@[simp] theorem modRing_inflight (r : Nat) (f : Ring → Ring) : (modRing r f s).inflight = s.inflight := rfl
@[simp] theorem modRing_txq (r : Nat) (f : Ring → Ring) : (modRing r f s).txq = s.txq := rfl
@[simp] theorem modRing_sent (r : Nat) (f : Ring → Ring) : (modRing r f s).sent = s.sent := rfl
@[simp] theorem modRing_holds (r : Nat) (f : Ring → Ring) : (modRing r f s).holds = s.holds := rfl
@[simp] theorem modRing_step (r : Nat) (f : Ring → Ring) : (modRing r f s).step = s.step := rfl
@[simp] theorem modRing_snap (r : Nat) (f : Ring → Ring) : (modRing r f s).snap = s.snap := rfl
@[simp] theorem modRing_keys (r : Nat) (f : Ring → Ring) : (modRing r f s).keys = s.keys := rfl
@[simp] theorem modRing_nv (r : Nat) (f : Ring → Ring) : (modRing r f s).nv = s.nv := rfl
@[simp] theorem modRing_log (r : Nat) (f : Ring → Ring) : (modRing r f s).log = s.log := rfl
@[simp] theorem modRing_sys (r : Nat) (f : Ring → Ring) : (modRing r f s).sys = s.sys := rfl
@[simp] theorem modRing_flt (r : Nat) (f : Ring → Ring) : (modRing r f s).flt = s.flt := rfl
@[simp] theorem modRing_flts (r : Nat) (f : Ring → Ring) : (modRing r f s).flts = s.flts := rfl
@[simp] theorem modRing_fltWas (r : Nat) (f : Ring → Ring) : (modRing r f s).fltWas = s.fltWas := rfl
@[simp] theorem modRing_hubLast (r : Nat) (f : Ring → Ring) : (modRing r f s).hubLast = s.hubLast := rfl

/-! ## wr -/

@[simp] theorem wr_pending (r : Reg) (v : Word) : (wr s r v).pending = s.pending := rfl
@[simp] theorem wr_bridges (r : Reg) (v : Word) : (wr s r v).bridges = s.bridges := rfl
@[simp] theorem wr_sep (r : Reg) (v : Word) : (wr s r v).sep = s.sep := rfl
@[simp] theorem wr_imem (r : Reg) (v : Word) : (wr s r v).imem = s.imem := rfl
@[simp] theorem wr_dmem (r : Reg) (v : Word) : (wr s r v).dmem = s.dmem := rfl
@[simp] theorem wr_tickets (r : Reg) (v : Word) : (wr s r v).tickets = s.tickets := rfl
@[simp] theorem wr_deferred (r : Reg) (v : Word) : (wr s r v).deferred = s.deferred := rfl
@[simp] theorem wr_dir (r : Reg) (v : Word) : (wr s r v).dir = s.dir := rfl
@[simp] theorem wr_cold (r : Reg) (v : Word) : (wr s r v).cold = s.cold := rfl
@[simp] theorem wr_ladder (r : Reg) (v : Word) : (wr s r v).ladder = s.ladder := rfl
@[simp] theorem wr_churns (r : Reg) (v : Word) : (wr s r v).churns = s.churns := rfl
@[simp] theorem wr_tasks (r : Reg) (v : Word) : (wr s r v).tasks = s.tasks := rfl
@[simp] theorem wr_flits (r : Reg) (v : Word) : (wr s r v).flits = s.flits := rfl
@[simp] theorem wr_ctxs (r : Reg) (v : Word) : (wr s r v).ctxs = s.ctxs := rfl
@[simp] theorem wr_pairs (r : Reg) (v : Word) : (wr s r v).pairs = s.pairs := rfl
@[simp] theorem wr_hub (r : Reg) (v : Word) : (wr s r v).hub = s.hub := rfl
@[simp] theorem wr_rings (r : Reg) (v : Word) : (wr s r v).rings = s.rings := rfl
@[simp] theorem wr_readback (r : Reg) (v : Word) : (wr s r v).readback = s.readback := rfl
@[simp] theorem wr_ports (r : Reg) (v : Word) : (wr s r v).ports = s.ports := rfl
@[simp] theorem wr_inflight (r : Reg) (v : Word) : (wr s r v).inflight = s.inflight := rfl
@[simp] theorem wr_txq (r : Reg) (v : Word) : (wr s r v).txq = s.txq := rfl
@[simp] theorem wr_sent (r : Reg) (v : Word) : (wr s r v).sent = s.sent := rfl
@[simp] theorem wr_holds (r : Reg) (v : Word) : (wr s r v).holds = s.holds := rfl
@[simp] theorem wr_step (r : Reg) (v : Word) : (wr s r v).step = s.step := rfl
@[simp] theorem wr_snap (r : Reg) (v : Word) : (wr s r v).snap = s.snap := rfl
@[simp] theorem wr_keys (r : Reg) (v : Word) : (wr s r v).keys = s.keys := rfl
@[simp] theorem wr_nv (r : Reg) (v : Word) : (wr s r v).nv = s.nv := rfl
@[simp] theorem wr_log (r : Reg) (v : Word) : (wr s r v).log = s.log := rfl
@[simp] theorem wr_sys (r : Reg) (v : Word) : (wr s r v).sys = s.sys := rfl
@[simp] theorem wr_flt (r : Reg) (v : Word) : (wr s r v).flt = s.flt := rfl
@[simp] theorem wr_flts (r : Reg) (v : Word) : (wr s r v).flts = s.flts := rfl
@[simp] theorem wr_fltWas (r : Reg) (v : Word) : (wr s r v).fltWas = s.fltWas := rfl
@[simp] theorem wr_hubLast (r : Reg) (v : Word) : (wr s r v).hubLast = s.hubLast := rfl

/-! ## dmWrite -/

@[simp] theorem dmWrite_pending (a : Nat) (l : List Byte) : (dmWrite a l s).pending = s.pending := rfl
@[simp] theorem dmWrite_bridges (a : Nat) (l : List Byte) : (dmWrite a l s).bridges = s.bridges := rfl
@[simp] theorem dmWrite_regs (a : Nat) (l : List Byte) : (dmWrite a l s).regs = s.regs := rfl
@[simp] theorem dmWrite_sep (a : Nat) (l : List Byte) : (dmWrite a l s).sep = s.sep := rfl
@[simp] theorem dmWrite_imem (a : Nat) (l : List Byte) : (dmWrite a l s).imem = s.imem := rfl
@[simp] theorem dmWrite_tickets (a : Nat) (l : List Byte) : (dmWrite a l s).tickets = s.tickets := rfl
@[simp] theorem dmWrite_deferred (a : Nat) (l : List Byte) : (dmWrite a l s).deferred = s.deferred := rfl
@[simp] theorem dmWrite_dir (a : Nat) (l : List Byte) : (dmWrite a l s).dir = s.dir := rfl
@[simp] theorem dmWrite_cold (a : Nat) (l : List Byte) : (dmWrite a l s).cold = s.cold := rfl
@[simp] theorem dmWrite_ladder (a : Nat) (l : List Byte) : (dmWrite a l s).ladder = s.ladder := rfl
@[simp] theorem dmWrite_churns (a : Nat) (l : List Byte) : (dmWrite a l s).churns = s.churns := rfl
@[simp] theorem dmWrite_tasks (a : Nat) (l : List Byte) : (dmWrite a l s).tasks = s.tasks := rfl
@[simp] theorem dmWrite_flits (a : Nat) (l : List Byte) : (dmWrite a l s).flits = s.flits := rfl
@[simp] theorem dmWrite_ctxs (a : Nat) (l : List Byte) : (dmWrite a l s).ctxs = s.ctxs := rfl
@[simp] theorem dmWrite_pairs (a : Nat) (l : List Byte) : (dmWrite a l s).pairs = s.pairs := rfl
@[simp] theorem dmWrite_hub (a : Nat) (l : List Byte) : (dmWrite a l s).hub = s.hub := rfl
@[simp] theorem dmWrite_rings (a : Nat) (l : List Byte) : (dmWrite a l s).rings = s.rings := rfl
@[simp] theorem dmWrite_readback (a : Nat) (l : List Byte) : (dmWrite a l s).readback = s.readback := rfl
@[simp] theorem dmWrite_ports (a : Nat) (l : List Byte) : (dmWrite a l s).ports = s.ports := rfl
@[simp] theorem dmWrite_inflight (a : Nat) (l : List Byte) : (dmWrite a l s).inflight = s.inflight := rfl
@[simp] theorem dmWrite_txq (a : Nat) (l : List Byte) : (dmWrite a l s).txq = s.txq := rfl
@[simp] theorem dmWrite_sent (a : Nat) (l : List Byte) : (dmWrite a l s).sent = s.sent := rfl
@[simp] theorem dmWrite_holds (a : Nat) (l : List Byte) : (dmWrite a l s).holds = s.holds := rfl
@[simp] theorem dmWrite_step (a : Nat) (l : List Byte) : (dmWrite a l s).step = s.step := rfl
@[simp] theorem dmWrite_snap (a : Nat) (l : List Byte) : (dmWrite a l s).snap = s.snap := rfl
@[simp] theorem dmWrite_keys (a : Nat) (l : List Byte) : (dmWrite a l s).keys = s.keys := rfl
@[simp] theorem dmWrite_nv (a : Nat) (l : List Byte) : (dmWrite a l s).nv = s.nv := rfl
@[simp] theorem dmWrite_log (a : Nat) (l : List Byte) : (dmWrite a l s).log = s.log := rfl
@[simp] theorem dmWrite_sys (a : Nat) (l : List Byte) : (dmWrite a l s).sys = s.sys := rfl
@[simp] theorem dmWrite_flt (a : Nat) (l : List Byte) : (dmWrite a l s).flt = s.flt := rfl
@[simp] theorem dmWrite_flts (a : Nat) (l : List Byte) : (dmWrite a l s).flts = s.flts := rfl
@[simp] theorem dmWrite_fltWas (a : Nat) (l : List Byte) : (dmWrite a l s).fltWas = s.fltWas := rfl
@[simp] theorem dmWrite_hubLast (a : Nat) (l : List Byte) : (dmWrite a l s).hubLast = s.hubLast := rfl

/-! ## tickFree -/

@[simp] theorem tickFree_pending : (tickFree s).pending = s.pending := rfl
@[simp] theorem tickFree_bridges : (tickFree s).bridges = s.bridges := rfl
@[simp] theorem tickFree_regs : (tickFree s).regs = s.regs := rfl
@[simp] theorem tickFree_sep : (tickFree s).sep = s.sep := rfl
@[simp] theorem tickFree_imem : (tickFree s).imem = s.imem := rfl
@[simp] theorem tickFree_dmem : (tickFree s).dmem = s.dmem := rfl
@[simp] theorem tickFree_tickets : (tickFree s).tickets = s.tickets := rfl
@[simp] theorem tickFree_deferred : (tickFree s).deferred = s.deferred := rfl
@[simp] theorem tickFree_dir : (tickFree s).dir = s.dir := rfl
@[simp] theorem tickFree_cold : (tickFree s).cold = s.cold := rfl
@[simp] theorem tickFree_ladder : (tickFree s).ladder = s.ladder := rfl
@[simp] theorem tickFree_churns : (tickFree s).churns = s.churns := rfl
@[simp] theorem tickFree_tasks : (tickFree s).tasks = s.tasks := rfl
@[simp] theorem tickFree_flits : (tickFree s).flits = s.flits := rfl
@[simp] theorem tickFree_ctxs : (tickFree s).ctxs = s.ctxs := rfl
@[simp] theorem tickFree_pairs : (tickFree s).pairs = s.pairs := rfl
@[simp] theorem tickFree_hub : (tickFree s).hub = s.hub := rfl
@[simp] theorem tickFree_rings : (tickFree s).rings = s.rings := rfl
@[simp] theorem tickFree_readback : (tickFree s).readback = s.readback := rfl
@[simp] theorem tickFree_ports : (tickFree s).ports = s.ports := rfl
@[simp] theorem tickFree_inflight : (tickFree s).inflight = s.inflight := rfl
@[simp] theorem tickFree_txq : (tickFree s).txq = s.txq := rfl
@[simp] theorem tickFree_sent : (tickFree s).sent = s.sent := rfl
@[simp] theorem tickFree_holds : (tickFree s).holds = s.holds := rfl
@[simp] theorem tickFree_step : (tickFree s).step = s.step := rfl
@[simp] theorem tickFree_snap : (tickFree s).snap = s.snap := rfl
@[simp] theorem tickFree_keys : (tickFree s).keys = s.keys := rfl
@[simp] theorem tickFree_nv : (tickFree s).nv = s.nv := rfl
@[simp] theorem tickFree_log : (tickFree s).log = s.log := rfl
@[simp] theorem tickFree_sys : (tickFree s).sys = s.sys := rfl
@[simp] theorem tickFree_flt : (tickFree s).flt = s.flt := rfl
@[simp] theorem tickFree_flts : (tickFree s).flts = s.flts := rfl
@[simp] theorem tickFree_fltWas : (tickFree s).fltWas = s.fltWas := rfl
@[simp] theorem tickFree_hubLast : (tickFree s).hubLast = s.hubLast := rfl

/-! ## setAstat -/

@[simp] theorem setAstat_pending (i : Nat) : (setAstat i s).pending = s.pending := rfl
@[simp] theorem setAstat_bridges (i : Nat) : (setAstat i s).bridges = s.bridges := rfl
@[simp] theorem setAstat_regs (i : Nat) : (setAstat i s).regs = s.regs := rfl
@[simp] theorem setAstat_imem (i : Nat) : (setAstat i s).imem = s.imem := rfl
@[simp] theorem setAstat_dmem (i : Nat) : (setAstat i s).dmem = s.dmem := rfl
@[simp] theorem setAstat_tickets (i : Nat) : (setAstat i s).tickets = s.tickets := rfl
@[simp] theorem setAstat_deferred (i : Nat) : (setAstat i s).deferred = s.deferred := rfl
@[simp] theorem setAstat_dir (i : Nat) : (setAstat i s).dir = s.dir := rfl
@[simp] theorem setAstat_cold (i : Nat) : (setAstat i s).cold = s.cold := rfl
@[simp] theorem setAstat_ladder (i : Nat) : (setAstat i s).ladder = s.ladder := rfl
@[simp] theorem setAstat_churns (i : Nat) : (setAstat i s).churns = s.churns := rfl
@[simp] theorem setAstat_tasks (i : Nat) : (setAstat i s).tasks = s.tasks := rfl
@[simp] theorem setAstat_flits (i : Nat) : (setAstat i s).flits = s.flits := rfl
@[simp] theorem setAstat_ctxs (i : Nat) : (setAstat i s).ctxs = s.ctxs := rfl
@[simp] theorem setAstat_pairs (i : Nat) : (setAstat i s).pairs = s.pairs := rfl
@[simp] theorem setAstat_hub (i : Nat) : (setAstat i s).hub = s.hub := rfl
@[simp] theorem setAstat_rings (i : Nat) : (setAstat i s).rings = s.rings := rfl
@[simp] theorem setAstat_readback (i : Nat) : (setAstat i s).readback = s.readback := rfl
@[simp] theorem setAstat_ports (i : Nat) : (setAstat i s).ports = s.ports := rfl
@[simp] theorem setAstat_inflight (i : Nat) : (setAstat i s).inflight = s.inflight := rfl
@[simp] theorem setAstat_txq (i : Nat) : (setAstat i s).txq = s.txq := rfl
@[simp] theorem setAstat_sent (i : Nat) : (setAstat i s).sent = s.sent := rfl
@[simp] theorem setAstat_holds (i : Nat) : (setAstat i s).holds = s.holds := rfl
@[simp] theorem setAstat_step (i : Nat) : (setAstat i s).step = s.step := rfl
@[simp] theorem setAstat_snap (i : Nat) : (setAstat i s).snap = s.snap := rfl
@[simp] theorem setAstat_keys (i : Nat) : (setAstat i s).keys = s.keys := rfl
@[simp] theorem setAstat_nv (i : Nat) : (setAstat i s).nv = s.nv := rfl
@[simp] theorem setAstat_log (i : Nat) : (setAstat i s).log = s.log := rfl
@[simp] theorem setAstat_sys (i : Nat) : (setAstat i s).sys = s.sys := rfl
@[simp] theorem setAstat_flt (i : Nat) : (setAstat i s).flt = s.flt := rfl
@[simp] theorem setAstat_flts (i : Nat) : (setAstat i s).flts = s.flts := rfl
@[simp] theorem setAstat_fltWas (i : Nat) : (setAstat i s).fltWas = s.fltWas := rfl
@[simp] theorem setAstat_hubLast (i : Nat) : (setAstat i s).hubLast = s.hubLast := rfl

/-! ## gW -/

@[simp] theorem gW_pending (i : BitVec 6) (v : Word) : (gW i v s).pending = s.pending := by unfold gW; split <;> rfl
@[simp] theorem gW_bridges (i : BitVec 6) (v : Word) : (gW i v s).bridges = s.bridges := by unfold gW; split <;> rfl
@[simp] theorem gW_regs (i : BitVec 6) (v : Word) : (gW i v s).regs = s.regs := by unfold gW; split <;> rfl
@[simp] theorem gW_imem (i : BitVec 6) (v : Word) : (gW i v s).imem = s.imem := by unfold gW; split <;> rfl
@[simp] theorem gW_dmem (i : BitVec 6) (v : Word) : (gW i v s).dmem = s.dmem := by unfold gW; split <;> rfl
@[simp] theorem gW_tickets (i : BitVec 6) (v : Word) : (gW i v s).tickets = s.tickets := by unfold gW; split <;> rfl
@[simp] theorem gW_deferred (i : BitVec 6) (v : Word) : (gW i v s).deferred = s.deferred := by unfold gW; split <;> rfl
@[simp] theorem gW_dir (i : BitVec 6) (v : Word) : (gW i v s).dir = s.dir := by unfold gW; split <;> rfl
@[simp] theorem gW_cold (i : BitVec 6) (v : Word) : (gW i v s).cold = s.cold := by unfold gW; split <;> rfl
@[simp] theorem gW_ladder (i : BitVec 6) (v : Word) : (gW i v s).ladder = s.ladder := by unfold gW; split <;> rfl
@[simp] theorem gW_churns (i : BitVec 6) (v : Word) : (gW i v s).churns = s.churns := by unfold gW; split <;> rfl
@[simp] theorem gW_tasks (i : BitVec 6) (v : Word) : (gW i v s).tasks = s.tasks := by unfold gW; split <;> rfl
@[simp] theorem gW_flits (i : BitVec 6) (v : Word) : (gW i v s).flits = s.flits := by unfold gW; split <;> rfl
@[simp] theorem gW_ctxs (i : BitVec 6) (v : Word) : (gW i v s).ctxs = s.ctxs := by unfold gW; split <;> rfl
@[simp] theorem gW_pairs (i : BitVec 6) (v : Word) : (gW i v s).pairs = s.pairs := by unfold gW; split <;> rfl
@[simp] theorem gW_hub (i : BitVec 6) (v : Word) : (gW i v s).hub = s.hub := by unfold gW; split <;> rfl
@[simp] theorem gW_rings (i : BitVec 6) (v : Word) : (gW i v s).rings = s.rings := by unfold gW; split <;> rfl
@[simp] theorem gW_readback (i : BitVec 6) (v : Word) : (gW i v s).readback = s.readback := by unfold gW; split <;> rfl
@[simp] theorem gW_ports (i : BitVec 6) (v : Word) : (gW i v s).ports = s.ports := by unfold gW; split <;> rfl
@[simp] theorem gW_inflight (i : BitVec 6) (v : Word) : (gW i v s).inflight = s.inflight := by unfold gW; split <;> rfl
@[simp] theorem gW_txq (i : BitVec 6) (v : Word) : (gW i v s).txq = s.txq := by unfold gW; split <;> rfl
@[simp] theorem gW_sent (i : BitVec 6) (v : Word) : (gW i v s).sent = s.sent := by unfold gW; split <;> rfl
@[simp] theorem gW_holds (i : BitVec 6) (v : Word) : (gW i v s).holds = s.holds := by unfold gW; split <;> rfl
@[simp] theorem gW_step (i : BitVec 6) (v : Word) : (gW i v s).step = s.step := by unfold gW; split <;> rfl
@[simp] theorem gW_snap (i : BitVec 6) (v : Word) : (gW i v s).snap = s.snap := by unfold gW; split <;> rfl
@[simp] theorem gW_keys (i : BitVec 6) (v : Word) : (gW i v s).keys = s.keys := by unfold gW; split <;> rfl
@[simp] theorem gW_nv (i : BitVec 6) (v : Word) : (gW i v s).nv = s.nv := by unfold gW; split <;> rfl
@[simp] theorem gW_log (i : BitVec 6) (v : Word) : (gW i v s).log = s.log := by unfold gW; split <;> rfl
@[simp] theorem gW_sys (i : BitVec 6) (v : Word) : (gW i v s).sys = s.sys := by unfold gW; split <;> rfl
@[simp] theorem gW_flt (i : BitVec 6) (v : Word) : (gW i v s).flt = s.flt := by unfold gW; split <;> rfl
@[simp] theorem gW_flts (i : BitVec 6) (v : Word) : (gW i v s).flts = s.flts := by unfold gW; split <;> rfl

/-! ## pW -/

@[simp] theorem pW_pending (i : BitVec 3) (b : Bool) : (pW i b s).pending = s.pending := by unfold pW; split <;> rfl
@[simp] theorem pW_bridges (i : BitVec 3) (b : Bool) : (pW i b s).bridges = s.bridges := by unfold pW; split <;> rfl
@[simp] theorem pW_regs (i : BitVec 3) (b : Bool) : (pW i b s).regs = s.regs := by unfold pW; split <;> rfl
@[simp] theorem pW_imem (i : BitVec 3) (b : Bool) : (pW i b s).imem = s.imem := by unfold pW; split <;> rfl
@[simp] theorem pW_dmem (i : BitVec 3) (b : Bool) : (pW i b s).dmem = s.dmem := by unfold pW; split <;> rfl
@[simp] theorem pW_tickets (i : BitVec 3) (b : Bool) : (pW i b s).tickets = s.tickets := by unfold pW; split <;> rfl
@[simp] theorem pW_deferred (i : BitVec 3) (b : Bool) : (pW i b s).deferred = s.deferred := by unfold pW; split <;> rfl
@[simp] theorem pW_dir (i : BitVec 3) (b : Bool) : (pW i b s).dir = s.dir := by unfold pW; split <;> rfl
@[simp] theorem pW_cold (i : BitVec 3) (b : Bool) : (pW i b s).cold = s.cold := by unfold pW; split <;> rfl
@[simp] theorem pW_ladder (i : BitVec 3) (b : Bool) : (pW i b s).ladder = s.ladder := by unfold pW; split <;> rfl
@[simp] theorem pW_churns (i : BitVec 3) (b : Bool) : (pW i b s).churns = s.churns := by unfold pW; split <;> rfl
@[simp] theorem pW_tasks (i : BitVec 3) (b : Bool) : (pW i b s).tasks = s.tasks := by unfold pW; split <;> rfl
@[simp] theorem pW_flits (i : BitVec 3) (b : Bool) : (pW i b s).flits = s.flits := by unfold pW; split <;> rfl
@[simp] theorem pW_ctxs (i : BitVec 3) (b : Bool) : (pW i b s).ctxs = s.ctxs := by unfold pW; split <;> rfl
@[simp] theorem pW_pairs (i : BitVec 3) (b : Bool) : (pW i b s).pairs = s.pairs := by unfold pW; split <;> rfl
@[simp] theorem pW_hub (i : BitVec 3) (b : Bool) : (pW i b s).hub = s.hub := by unfold pW; split <;> rfl
@[simp] theorem pW_rings (i : BitVec 3) (b : Bool) : (pW i b s).rings = s.rings := by unfold pW; split <;> rfl
@[simp] theorem pW_readback (i : BitVec 3) (b : Bool) : (pW i b s).readback = s.readback := by unfold pW; split <;> rfl
@[simp] theorem pW_ports (i : BitVec 3) (b : Bool) : (pW i b s).ports = s.ports := by unfold pW; split <;> rfl
@[simp] theorem pW_inflight (i : BitVec 3) (b : Bool) : (pW i b s).inflight = s.inflight := by unfold pW; split <;> rfl
@[simp] theorem pW_txq (i : BitVec 3) (b : Bool) : (pW i b s).txq = s.txq := by unfold pW; split <;> rfl
@[simp] theorem pW_sent (i : BitVec 3) (b : Bool) : (pW i b s).sent = s.sent := by unfold pW; split <;> rfl
@[simp] theorem pW_holds (i : BitVec 3) (b : Bool) : (pW i b s).holds = s.holds := by unfold pW; split <;> rfl
@[simp] theorem pW_step (i : BitVec 3) (b : Bool) : (pW i b s).step = s.step := by unfold pW; split <;> rfl
@[simp] theorem pW_snap (i : BitVec 3) (b : Bool) : (pW i b s).snap = s.snap := by unfold pW; split <;> rfl
@[simp] theorem pW_keys (i : BitVec 3) (b : Bool) : (pW i b s).keys = s.keys := by unfold pW; split <;> rfl
@[simp] theorem pW_nv (i : BitVec 3) (b : Bool) : (pW i b s).nv = s.nv := by unfold pW; split <;> rfl
@[simp] theorem pW_log (i : BitVec 3) (b : Bool) : (pW i b s).log = s.log := by unfold pW; split <;> rfl
@[simp] theorem pW_sys (i : BitVec 3) (b : Bool) : (pW i b s).sys = s.sys := by unfold pW; split <;> rfl
@[simp] theorem pW_flt (i : BitVec 3) (b : Bool) : (pW i b s).flt = s.flt := by unfold pW; split <;> rfl
@[simp] theorem pW_flts (i : BitVec 3) (b : Bool) : (pW i b s).flts = s.flts := by unfold pW; split <;> rfl

/-! ## tW -/

@[simp] theorem tW_pending (i : BitVec 4) (d : Desc) : (tW i d s).pending = s.pending := rfl
@[simp] theorem tW_bridges (i : BitVec 4) (d : Desc) : (tW i d s).bridges = s.bridges := rfl
@[simp] theorem tW_regs (i : BitVec 4) (d : Desc) : (tW i d s).regs = s.regs := rfl
@[simp] theorem tW_imem (i : BitVec 4) (d : Desc) : (tW i d s).imem = s.imem := rfl
@[simp] theorem tW_dmem (i : BitVec 4) (d : Desc) : (tW i d s).dmem = s.dmem := rfl
@[simp] theorem tW_tickets (i : BitVec 4) (d : Desc) : (tW i d s).tickets = s.tickets := rfl
@[simp] theorem tW_deferred (i : BitVec 4) (d : Desc) : (tW i d s).deferred = s.deferred := rfl
@[simp] theorem tW_dir (i : BitVec 4) (d : Desc) : (tW i d s).dir = s.dir := rfl
@[simp] theorem tW_cold (i : BitVec 4) (d : Desc) : (tW i d s).cold = s.cold := rfl
@[simp] theorem tW_ladder (i : BitVec 4) (d : Desc) : (tW i d s).ladder = s.ladder := rfl
@[simp] theorem tW_churns (i : BitVec 4) (d : Desc) : (tW i d s).churns = s.churns := rfl
@[simp] theorem tW_tasks (i : BitVec 4) (d : Desc) : (tW i d s).tasks = s.tasks := rfl
@[simp] theorem tW_flits (i : BitVec 4) (d : Desc) : (tW i d s).flits = s.flits := rfl
@[simp] theorem tW_ctxs (i : BitVec 4) (d : Desc) : (tW i d s).ctxs = s.ctxs := rfl
@[simp] theorem tW_pairs (i : BitVec 4) (d : Desc) : (tW i d s).pairs = s.pairs := rfl
@[simp] theorem tW_hub (i : BitVec 4) (d : Desc) : (tW i d s).hub = s.hub := rfl
@[simp] theorem tW_rings (i : BitVec 4) (d : Desc) : (tW i d s).rings = s.rings := rfl
@[simp] theorem tW_readback (i : BitVec 4) (d : Desc) : (tW i d s).readback = s.readback := rfl
@[simp] theorem tW_ports (i : BitVec 4) (d : Desc) : (tW i d s).ports = s.ports := rfl
@[simp] theorem tW_inflight (i : BitVec 4) (d : Desc) : (tW i d s).inflight = s.inflight := rfl
@[simp] theorem tW_txq (i : BitVec 4) (d : Desc) : (tW i d s).txq = s.txq := rfl
@[simp] theorem tW_sent (i : BitVec 4) (d : Desc) : (tW i d s).sent = s.sent := rfl
@[simp] theorem tW_holds (i : BitVec 4) (d : Desc) : (tW i d s).holds = s.holds := rfl
@[simp] theorem tW_step (i : BitVec 4) (d : Desc) : (tW i d s).step = s.step := rfl
@[simp] theorem tW_snap (i : BitVec 4) (d : Desc) : (tW i d s).snap = s.snap := rfl
@[simp] theorem tW_keys (i : BitVec 4) (d : Desc) : (tW i d s).keys = s.keys := rfl
@[simp] theorem tW_nv (i : BitVec 4) (d : Desc) : (tW i d s).nv = s.nv := rfl
@[simp] theorem tW_log (i : BitVec 4) (d : Desc) : (tW i d s).log = s.log := rfl
@[simp] theorem tW_sys (i : BitVec 4) (d : Desc) : (tW i d s).sys = s.sys := rfl
@[simp] theorem tW_flt (i : BitVec 4) (d : Desc) : (tW i d s).flt = s.flt := rfl
@[simp] theorem tW_flts (i : BitVec 4) (d : Desc) : (tW i d s).flts = s.flts := rfl
@[simp] theorem tW_fltWas (i : BitVec 4) (d : Desc) : (tW i d s).fltWas = s.fltWas := rfl
@[simp] theorem tW_hubLast (i : BitVec 4) (d : Desc) : (tW i d s).hubLast = s.hubLast := rfl

/-! ## leaveIssue -/

@[simp] theorem leaveIssue_pending : (leaveIssue s).pending = s.pending := rfl
@[simp] theorem leaveIssue_bridges : (leaveIssue s).bridges = s.bridges := rfl
@[simp] theorem leaveIssue_regs : (leaveIssue s).regs = s.regs := rfl
@[simp] theorem leaveIssue_imem : (leaveIssue s).imem = s.imem := rfl
@[simp] theorem leaveIssue_dmem : (leaveIssue s).dmem = s.dmem := rfl
@[simp] theorem leaveIssue_tickets : (leaveIssue s).tickets = s.tickets := rfl
@[simp] theorem leaveIssue_deferred : (leaveIssue s).deferred = s.deferred := rfl
@[simp] theorem leaveIssue_dir : (leaveIssue s).dir = s.dir := rfl
@[simp] theorem leaveIssue_cold : (leaveIssue s).cold = s.cold := rfl
@[simp] theorem leaveIssue_ladder : (leaveIssue s).ladder = s.ladder := rfl
@[simp] theorem leaveIssue_churns : (leaveIssue s).churns = s.churns := rfl
@[simp] theorem leaveIssue_tasks : (leaveIssue s).tasks = s.tasks := rfl
@[simp] theorem leaveIssue_flits : (leaveIssue s).flits = s.flits := rfl
@[simp] theorem leaveIssue_ctxs : (leaveIssue s).ctxs = s.ctxs := rfl
@[simp] theorem leaveIssue_pairs : (leaveIssue s).pairs = s.pairs := rfl
@[simp] theorem leaveIssue_hub : (leaveIssue s).hub = s.hub := rfl
@[simp] theorem leaveIssue_rings : (leaveIssue s).rings = s.rings := rfl
@[simp] theorem leaveIssue_readback : (leaveIssue s).readback = s.readback := rfl
@[simp] theorem leaveIssue_ports : (leaveIssue s).ports = s.ports := rfl
@[simp] theorem leaveIssue_inflight : (leaveIssue s).inflight = s.inflight := rfl
@[simp] theorem leaveIssue_txq : (leaveIssue s).txq = s.txq := rfl
@[simp] theorem leaveIssue_sent : (leaveIssue s).sent = s.sent := rfl
@[simp] theorem leaveIssue_holds : (leaveIssue s).holds = s.holds := rfl
@[simp] theorem leaveIssue_step : (leaveIssue s).step = s.step := rfl
@[simp] theorem leaveIssue_snap : (leaveIssue s).snap = s.snap := rfl
@[simp] theorem leaveIssue_keys : (leaveIssue s).keys = s.keys := rfl
@[simp] theorem leaveIssue_nv : (leaveIssue s).nv = s.nv := rfl
@[simp] theorem leaveIssue_log : (leaveIssue s).log = s.log := rfl
@[simp] theorem leaveIssue_sys : (leaveIssue s).sys = s.sys := rfl
@[simp] theorem leaveIssue_flt : (leaveIssue s).flt = s.flt := rfl
@[simp] theorem leaveIssue_flts : (leaveIssue s).flts = s.flts := rfl
@[simp] theorem leaveIssue_fltWas : (leaveIssue s).fltWas = s.fltWas := rfl
@[simp] theorem leaveIssue_hubLast : (leaveIssue s).hubLast = s.hubLast := rfl

end Sys2Proof.Machine
end

