-- ==== Sys2Proof/Laws/Memory.lean ====
section
/-! SUPPORT. The memories keep their canonical form under every operation that writes them, and read back what was written. -/

namespace Sys2Proof.Machine

/-- Bytes written to a memory keep its form. -/
theorem mwf_putBytes (l : List Byte) (a : Nat) (m : List Host.Cell) (h : mwf (0 : Byte) m = true) :
    mwf (0 : Byte) (putBytes l a m) = true := by
  induction l generalizing a m with
  | nil => exact h
  | cons b r ih => exact ih (a + 1) _ (mwf_mset h)

/-- A filter keeps the form of a table. -/
theorem mwfFrom_filter {α : Type} [DecidableEq α] {d : α} (p : Nat × α → Bool) (m : SMap α) (b : Nat) (h : mwfFrom d b m = true) :
    mwfFrom d b (m.filter p) = true := by
  induction m generalizing b with
  | nil => rfl
  | cons x r ih =>
    obtain ⟨k, v⟩ := x
    simp only [mwfFrom, Bool.and_eq_true, decide_eq_true_eq] at h
    obtain ⟨⟨h1, h2⟩, h3⟩ := h
    by_cases hp : p (k, v) = true
    · simp [List.filter, hp, mwfFrom, h1, h2, ih _ h3]
    · simp only [List.filter, hp]
      exact mwfFrom_mono (ih _ h3) (by omega)

/-- Bytes put one by one keep the form of the non-volatile store. -/
theorem mwf_puts (l : List (Byte × Nat)) (a : Nat) (m : List Host.Cell) (h : mwf (0xFF : Byte) m = true) :
    mwf (0xFF : Byte) (l.foldl (fun m x => mset 0xFF m (a + x.2) x.1) m) = true := by
  induction l generalizing m with
  | nil => exact h
  | cons x r ih => exact ih _ (mwf_mset h)

/-- Memory's form depends on the three memories alone. -/
theorem wf_of_eq {s t : State} (h : Memory.wf s = true) (h1 : t.dmem = s.dmem) (h2 : t.imem = s.imem) (h3 : t.nv = s.nv) :
    Memory.wf t = true := by
  simpa [Memory.wf, h1, h2, h3] using h

/-- Writing bytes of data memory keeps the form. -/
theorem wf_dmWrite {s : State} (h : Memory.wf s = true) (a : Nat) (l : List Byte) : Memory.wf (dmWrite a l s) = true := by
  simp only [Memory.wf, Bool.and_eq_true] at h ⊢
  exact ⟨⟨mwf_putBytes l a _ h.1.1, h.1.2⟩, h.2⟩

/-- Writing an instruction word keeps the form. -/
theorem wf_imem {s : State} (h : Memory.wf s = true) (i : Nat) (v : Word) : Memory.wf { s with imem := mset 0 s.imem i v } = true := by
  simp only [Memory.wf, Bool.and_eq_true] at h ⊢
  exact ⟨⟨h.1.1, mwf_mset h.1.2⟩, h.2⟩

/-- Writing the non-volatile store keeps the form. -/
theorem wf_nvPut {s : State} (h : Memory.wf s = true) (l : List Byte) (a : Nat) : Memory.wf (nvPut l a s) = true := by
  simp only [Memory.wf, Bool.and_eq_true] at h ⊢
  exact ⟨h.1, mwf_puts _ a _ h.2⟩

/-- Erasing a sector of the non-volatile store keeps the form. -/
theorem wf_nvErase {s : State} (h : Memory.wf s = true) (k : Nat) : Memory.wf (nvErase k s) = true := by
  simp only [Memory.wf, Bool.and_eq_true] at h ⊢
  exact ⟨h.1, mwfFrom_filter _ _ _ h.2⟩

/-- A byte outside those written reads as before; the bytes written read what was written. -/
theorem mget_putBytes (l : List Byte) (a : Nat) (m : List Host.Cell) (h : mwf (0 : Byte) m = true) (q : Nat) :
    mget 0 (putBytes l a m) q = if a ≤ q ∧ q < a + l.length then l.getD (q - a) 0 else mget 0 m q := by
  induction l generalizing a m with
  | nil =>
    rw [putBytes, if_neg (by simp only [List.length_nil]; omega)]
  | cons b r ih =>
    rw [putBytes, ih (a + 1) _ (mwf_mset h)]
    by_cases hq : q = a
    · subst hq
      have h1 : ¬(q + 1 ≤ q ∧ q < q + 1 + r.length) := by omega
      simp only [if_neg h1, mget_mset_same h]
      simp
    · rw [mget_mset_ne hq]
      by_cases h2 : a + 1 ≤ q ∧ q < a + 1 + r.length
      · have h3 : a ≤ q ∧ q < a + (b :: r).length := by simp; omega
        rw [if_pos h2, if_pos h3]
        obtain ⟨k, rfl⟩ : ∃ k, q = a + 1 + k := ⟨q - (a + 1), by omega⟩
        simp [show a + 1 + k - a = k + 1 by omega, show a + 1 + k - (a + 1) = k by omega]
      · have h3 : ¬(a ≤ q ∧ q < a + (b :: r).length) := by simp; omega
        rw [if_neg h2, if_neg h3]

end Sys2Proof.Machine
end

