-- ==== Sys2Proof/Laws/Regs.lean ====
section
/-! SUPPORT. The storing registers of the map: what a read gives after a write, and the bits of a write. -/

namespace Sys2Proof.Machine

/-- A read of the register just written. -/
theorem rd_wr {s : State} {r : Reg} {v : Word} (h : mwf 0 s.regs = true) : rd (wr s r v) r = v := by
  simp only [rd, wr]; rw [mget_mset_same h, BitVec.xor_assoc, BitVec.xor_self, BitVec.xor_zero]

/-- A read of a register at another offset. -/
theorem rd_wr_ne {s : State} {r q : Reg} {v : Word} (h : Reg.off q ≠ Reg.off r) : rd (wr s r v) q = rd s q := by
  simp only [rd, wr]; rw [mget_mset_ne h]

/-- A write keeps the table of registers in its canonical form. -/
theorem wr_mwf {s : State} {r : Reg} {v : Word} (h : mwf 0 s.regs = true) : mwf 0 (wr s r v).regs = true := mwf_mset h

/-- Field [2:0] after it was set. -/
theorem setFld_low (v : Word) {k : Nat} (h : k < 8) : (setFld v 2 0 k).toNat % 8 = k := by
  simp only [setFld, fld, Nat.shiftRight_zero, Nat.sub_zero, BitVec.toNat_ofNat, Nat.reducePow, Nat.reduceAdd, Nat.mul_one]
  have := v.isLt; omega

/-- A low bit that a write of the low half addresses. -/
theorem bit_size {o : Org} (h : o.size ≠ .high) (v : Word) {i : Nat} (hi : i < 32) : bit (v &&& sizeMask o.size) i = v.getLsbD i := by
  have e : ∀ i, i < 32 → (0xFFFFFFFFFFFFFFFF : Word).getLsbD i = true ∧ (0xFFFFFFFF : Word).getLsbD i = true := by decide
  cases hs : o.size
  · simp [bit, sizeMask]; intro; simpa using (e i hi).1
  · simp [bit, sizeMask]; intro; simpa using (e i hi).2
  · exact absurd hs h

end Sys2Proof.Machine
end

