-- ==== Sys2Proof/Tests/Slice0.lean ====
section
/-! SUPPORT. Tests: ill-formed terms that the checks refuse, words decoded from the spec's tables, worked values of the spec, and for
each statement with hypotheses a state that meets them, clause by clause. -/

namespace Sys2Proof.Tests

set_option Elab.async false

open Sys2Proof Sys2Proof.Machine

/-! ## Helpers -/

/-- A block that is READY in NORMAL, with its clocks, links and credits. -/
def up : State :=
  { State.reset with
    sys := { State.reset.sys with cold := false, phase := 8, lock := true, mode := 1 }
    ports := Vector.replicate 68 { outUp := true, inUp := true, everUp := true, hdr := 64, dat := 512, rxHdr := 256, rxDat := 2048 } }

/-- That block with the separator RUNNING. -/
def run : State := { up with sep := { up.sep with st := .running } }

/-- The guard that always holds. -/
def G : Guard := { pn := false, pr := 0 }

/-- The guard that never holds. -/
def N : Guard := { pn := true, pr := 0 }

/-- The origin of a 64-bit write over the control port, and of a write of the high half. -/
def O : Org := { origin := .cp, rid := 0, size := .full }
def H : Org := { origin := .cp, rid := 0, size := .high }

/-- A separator instruction's index in the registers: general register `a` holds `v`. -/
def withG (a : BitVec 6) (v : Word) (s : State) : State := gW a v s

/-- Descriptor 0 holds `d`. -/
def withD (d : Desc) (s : State) : State := tW 0 d s

/-- Entry `e` is `x`. -/
def withE (e : Nat) (x : Entry) (s : State) : State := setEnt s e x

/-- A message of `d` data credits arrives. -/
def arrivesB (s : State) (p : PortId) (d : Nat) : Bool := live s && linkOk s p && hasRx s p d

theorem arrives_of {s : State} {p : PortId} {d : Nat} (h : arrivesB s p d = true) : arrives s p d := by
  simpa [arrivesB, arrives, and_assoc] using h

/-! ## Well-formed terms -/

theorem test_wf_rdsr : wf (.rdsr G 1 9) = true ∧ wf (.rdsr G 1 10) = false := by decide
theorem test_wf_wrsr : wf (.wrsr G 1 2) = true ∧ wf (.wrsr G 1 5) = true ∧ wf (.wrsr G 1 3) = false := by decide
theorem test_wf_dset : wf (.dset G 1 2 4) = true ∧ wf (.dset G 1 2 5) = false := by decide
theorem test_wf_half :
    wf (.registerWrite H 0 0x100000000) = true ∧ wf (.registerWrite H 0 1) = false ∧
    wf (.sepPcWrite { H with size := .low } 0x100000000) = false := by decide


/-! ## States that meet the hypotheses of the statements -/

/-- A step on queue `[c]` of state `s` answers a next state. -/
def steps (s : State) (c : Instr) : Bool := match step { s with pending := [c] } with | .next _ => true | _ => false

/-- With the pc at the last index. -/
def last (s : State) : State := { s with sep := { s.sep with pc := 32767 } }

/-- With SEP_CTL.TVEC_EN. -/
def tvec (s : State) : State := wr s .sepCtl 8

/-- With the step open. -/
def opened (s : State) : State := { s with step := { s.step with open_ := true } }

theorem test_meets_StepRunsFront : ({ up with pending := [.nop G] } : State).pending = .nop G :: [] := rfl

theorem test_meets_EmptyQueueTicks :
    up.pending = [] ∧ State.reset.sys.cold = true ∧ fclkOn { up with sys := { up.sys with lock := false } } = false ∧
    (fclkOn { up with sys := { up.sys with phase := 7 } } = true ∧ live { up with sys := { up.sys with phase := 7 } } = false) := by decide +kernel

theorem test_meets_StepKeepsInterruptsWired : wired up = true ∧ steps up .vdroop = true ∧ wired run = true ∧ steps run (.nop G) = true := by
  decide

theorem test_meets_ResetAcceptsNothing : inReset State.reset = true ∧ inReset { up with sys := { up.sys with warm := true } } = true := by
  decide

theorem test_meets_DecodeOfEncode :
    wf (.ldt G 3 10 192) = true ∧ sepEncode (.ldt G 3 10 192) = some 0x142000A00C0000C0 ∧
    wf (.br G 511) = true ∧ sepEncode (.br G 511) = some 0x18000000000001FF := by decide +kernel

theorem test_meets_IssueRules :
    canIssue (.nop G) up = false ∧ (canIssue (.rdsr G 1 10) run = true ∧ wf (.rdsr G 1 10) = false) ∧
    (canIssue (.nop N) run = true ∧ guardOk N run = false ∧ run.sep.pc ≠ 32767) ∧
    (canIssue (.nop N) (last run) = true ∧ guardOk N (last run) = false ∧ (last run).sep.pc = 32767) := by decide +kernel

theorem test_meets_IndexRules :
    (canIssue (.br G 5) (last run) = true ∧ guardOk G (last run) = true ∧ canIssue (.call G 5) (last run) = true) ∧
    (canIssue (.ret G) (withG 63 32767 run) = true ∧ (gR (withG 63 32767 run) 63).toNat < 32768) ∧
    (canIssue (.ret G) (withG 63 32768 run) = true ∧ 32768 ≤ (gR (withG 63 32768 run) 63).toNat) ∧
    (canIssue (.halt G) (last run) = true ∧ wf (.halt G) = true ∧ (last run).sep.pc = 32767) ∧
    (canIssue (.snap G) (last (opened run)) = true ∧ (last (opened run)).step.open_ = true) := by decide +kernel

theorem test_meets_TakingATrap :
    (bit (rd (tvec run) .sepCtl) 3 = true ∧ (tvec run).sep.inh = false) ∧ bit (rd run .sepCtl) 3 = false ∧ (23 : Nat) < 24 := by decide +kernel

theorem test_meets_FixedRegisters :
    canIssue (.call G 9) run = true ∧ guardOk G run = true ∧ bit (rd (tvec run) .sepCtl) 3 = true ∧ (tvec run).sep.inh = false := by decide +kernel

theorem test_meets_RegisterWriteFrames : (2 : BitVec 6) ≠ 1 ∧ (2 : BitVec 3) ≠ 1 := by decide +kernel

/-- The scalar instructions issue, whatever their operands. -/
theorem test_meets_scalar_results :
    ∀ i ∈ [Instr.add G 1 2 3, .sub G 1 2 3, .and G 1 2 3, .or G 1 2 3, .xor G 1 2 3, .shl G 1 2 3, .shr G 1 2 3, .sra G 1 2 3,
      .min G 1 2 3, .max G 1 2 3, .minu G 1 2 3, .maxu G 1 2 3, .mul G 1 2 3, .mulhu G 1 2 3, .divu G 1 2 3, .remu G 0 2 3,
      .addi G 1 2 3, .andi G 1 2 3, .ori G 1 2 3, .xori G 1 2 3, .shli G 1 2 63, .shri G 1 2 3, .srai G 1 2 3, .li G 1 3, .lih G 1 3,
      .ceq G 1 2 3, .cne G 1 2 3, .clt G 1 2 3, .cltu G 1 2 3, .cle G 1 2 3, .cleu G 0 2 3, .pand G 1 2 3, .por G 1 2 3,
      .pxor G 1 2 3, .pandn G 1 2 3, .tgetw G 1 2 3, .tsetw G 1 2 3, .rdsr G 1 9, .wrsr G 1 2, .wrsr G 1 5, .nop G, .halt G, .trap G 7],
      canIssue i run = true ∧ wf i = true ∧ guardOk G run = true ∧ run.sep.pc ≠ 32767 := by decide +kernel

theorem test_meets_LoadsAndDescriptorWords :
    Issues (.ld G 1 2 262136) G run ∧ (memAddr run 2 262136 % 8 = 0 ∧ memAddr run 2 262136 < 262144) ∧
    ¬(memAddr run 2 262144 % 8 = 0 ∧ memAddr run 2 262144 < 262144) ∧ Issues (.ldt G 1 2 262112) G run ∧
    (memAddr run 2 262112 % 32 = 0 ∧ memAddr run 2 262112 < 262144) ∧ ¬(memAddr run 2 16 % 32 = 0 ∧ memAddr run 2 16 < 262144) ∧
    Issues (.tgetw G 1 2 3) G run ∧ Issues (.tsetw G 1 2 3) G run := by
  unfold Issues; decide +kernel

theorem test_meets_StoresAndTheirFrame :
    mwf 0 run.dmem = true ∧ Issues (.st G 1 2 262136) G run ∧ Issues (.stt G 1 2 262112) G run ∧
    (memAddr run 2 262136 % 8 = 0 ∧ memAddr run 2 262136 < 262144) ∧ ¬(memAddr run 2 4 % 8 = 0 ∧ memAddr run 2 4 < 262144) ∧
    (memAddr run 2 262112 % 32 = 0 ∧ memAddr run 2 262112 < 262144) ∧ ¬(memAddr run 2 (-8) % 32 = 0 ∧ memAddr run 2 (-8) < 262144) := by
  unfold Issues; decide +kernel

theorem test_meets_MemoryFormKept : Memory.wf run = true ∧ Memory.wf (dmWrite 8 [1, 2] run) = true := by decide +kernel

theorem test_meets_TablesReadBack : mwf (0 : Word) [(3, 7), (9, 1)] = true ∧ (4 : Nat) ≠ 3 := by decide +kernel

theorem test_meets_SystemInstructions :
    Issues (.trap G 7) G run ∧ Issues (.wrsr G 1 5) G run ∧
    (let s := withG 62 32767 { run with sep := { run.sep with inh := true } };
      canIssue (.rte G) s = true ∧ s.sep.inh = true ∧ (gR s 62).toNat < 32768) ∧
    (canIssue (.rte G) run = true ∧ run.sep.inh = false) ∧
    (let s := { run with sep := { run.sep with held := some (.lfence G), lfTmo := 5 } };
      live s = true ∧ s.sep.held = some (.lfence G) ∧ s.sep.st = .running ∧ s.sep.lfTmo ≠ 0) ∧ run.sep.lfTmo = 0 := by
  unfold Issues; decide +kernel

/-- A cellar of one map page: 64 chunks of which one holds maps. -/
def cellar (s : State) : State := wr (wr { s with hasCellar := true } .celSize 64) .celMap 1

/-- A descriptor of entry 5: chunk mask 1, one block, recipe 3. -/
def D5 : Desc := { w0 := pack [(47, 5)], w1 := pack [(16, 3)], w2 := pack [(24, 1)], w3 := pack [(32, 1)] }

/-- A resident entry on churn 0. -/
def E5 : Entry := { st := .resident, chmask := 1, recipe := 3, mapLen := 1 }

theorem test_meets_EntryCreation :
    Issues (.mkent G 0) G (withD D5 run) ∧ Issues (.mkdrop G 0) G (withD D5 run) ∧
    ({ run with step := { run.step with sweep := true } } : State).step.sweep = true ∧ run.step.sweep = false ∧
    canCreate run {} = false ∧ canCreate run D5 = true ∧ D5.recipe ≠ 0 ∧ mapAlloc run (descLen run D5) = none ∧
    mapAlloc (cellar run) (descLen (cellar run) D5) = some 0 ∧ run.sep.mapStall = none ∧
    (let w : State := { run with sep := { run.sep with mapStall := some 1 } };
      Issues (.mkent G 0) G (withD D5 w) ∧ w.sep.mapStall = some 1 ∧ mapAlloc w 1 = none ∧
      (cellar w).sep.mapStall = some 1 ∧ mapAlloc (cellar w) 1 = some 0) ∧
    fmtK D5.fmt (ctxAt run D5.ctx).rank ≠ 0 := by
  unfold Issues; decide +kernel

theorem test_meets_DirectoryFields :
    let s := withG 1 131071 run; let t := withE 131071 E5 s; let d := withE 131071 { E5 with st := .dropped } s
    Issues (.drd G 2 1 0) G s ∧ Issues (.spill G 1 1) G s ∧ Issues (.dset G 1 2 4) G t ∧
    131072 ≤ (gR (withG 1 131072 run) 1).toNat ∧ ((gR s 1).toNat < 131072 ∧ (entAt s (gR s 1).toNat).st = .free) ∧
    (entAt t (gR t 1).toNat).st ≠ .free ∧ ((entAt d (gR d 1).toNat).st = .dropped ∧ fld (gR d 2) 15 0 = 0) := by
  unfold Issues; decide +kernel

theorem test_meets_DirectoryMoves :
    let s := withG 1 5 (wr run .coldSize 9)
    Issues (.spill G 1 1) G (withE 5 E5 s) ∧ Issues (.recall G 1) G s ∧ Issues (.drop G 1) G s ∧ Issues (.rel G 1) G s ∧
    (∀ x ∈ [ESt.filling, .resident, .spilling, .spilled, .recalling, .dropped, .released],
      (gR s 1).toNat < 131072 ∧ (entAt (withE 5 { E5 with st := x } s) (gR s 1).toNat).st = x) ∧
    (coldAlloc (withE 5 E5 s) (extentUnits (withE 5 E5 s) 5)).isSome = true ∧
    (coldAlloc (withE 5 E5 run) (extentUnits (withE 5 E5 run) 5)).isNone = true ∧
    (entAt (withE 5 { E5 with refs := 255, st := .spilled } s) 5).refs = 255 ∧ (entAt (withE 5 { E5 with refs := 1 } s) 5).refs ≠ 0 ∧
    hasDeferred s 5 = false ∧ hasDeferred { s with deferred := [(0, { entry := 5 })] } 5 = true := by
  unfold Issues; decide +kernel

theorem test_meets_EntryAfterMove :
    let s := withE 5 E5 (wr run .coldSize 9)
    mwf ({} : Entry) s.dir = true ∧ coldAlloc s (extentUnits s 5) = some 0 ∧ (6 : Nat) ≠ 5 := by decide +kernel

/-- Context `i` is `x`. -/
def withC (i : Nat) (x : Ctx) (s : State) : State := setCtx s i x

/-- An OPEN context of a kind on churn 0 with `n` elements. -/
def ctx (kind n : Nat) : Ctx := { w := [pack [(62, kind), (32, 0), (0, 1)], BitVec.ofNat 64 n, 0, 0, 0, 0, 0, 0], st := .opened }

/-- Churn 0 has no credit. -/
def noCredit (s : State) : State := modChurn 0 (fun c => { c with credit := 0 }) s

/-- All ticket slots are taken. -/
def fullSlots (s : State) : State := { s with tickets := (List.range 256).map fun i => (i, { taken := true, seq := 1 }) }

/-- The link of CCP is down. -/
def noCcp (s : State) : State := setPort s .ccp {}

theorem test_meets_StreamInIssue :
    let s := withD { D5 with w0 := pack [(47, 5), (23, 1)] } (withC 1 (ctx 0 16384) run); let f := withE 5 { E5 with st := .filling } s
    let D := tR s 0
    Issues (.stin G 0 1) G s ∧ Issues (.stin G 0 1) G f ∧ (entAt s D.entry).st = .free ∧
    ((entAt (withE 5 E5 s) D.entry).st ≠ .free ∧ stinOk (withE 5 E5 s) D = false) ∧
    (stinOk f D = true ∧ (entAt f D.entry).refs ≠ 255 ∧ creditsAll f D.chmask = true ∧ creditsAll (noCredit f) D.chmask = false) ∧
    (stinOk (withE 5 { E5 with st := .filling, refs := 255 } s) D = true ∧ (entAt (withE 5 { E5 with refs := 255 } s) D.entry).refs = 255) := by
  unfold Issues; decide +kernel

theorem test_meets_StreamOutIssue :
    let s := withD { D5 with w0 := pack [(47, 5), (23, 1)] } (withC 1 (ctx 1 16384) run); let D := tR s 0
    let e (x : ESt) (r : BitVec 8) : State := withE 5 { E5 with st := x, refs := r } s
    (∀ x ∈ [ESt.free, .filling, .resident, .spilling, .spilled, .recalling, .dropped, .released],
      Issues (.stout G 0 1) G (e x 0) ∧ (entAt (e x 0) D.entry).st = x) ∧
    (stoutCtxOk (e .dropped 0) D = true ∧ freeSlot (fullSlots (e .dropped 0)) = none ∧ freeSlot (e .dropped 0) = some 0 ∧
      ccpReady (noCcp (e .dropped 0)) = false ∧ ccpReady (e .dropped 0) = true) ∧
    stoutOk (withC 1 (ctx 0 0) (e .resident 0)) D = false ∧
    (stoutOk (e .resident 255) D = true ∧ (entAt (e .resident 255) D.entry).refs = 255) ∧
    (stoutOk (e .resident 253) D = true ∧ (entAt (e .resident 253) D.entry).refs.toNat < 254 ∧ creditsAll (e .resident 253) D.chmask = true ∧
      creditsAll (noCredit (e .resident 253)) D.chmask = false ∧ reencoding (e .resident 253) D.entry = false) ∧
    (freeDefer (e .spilled 0) = some 0 ∧
      freeDefer { e .spilled 0 with deferred := (List.range 64).map fun k => (k, { entry := 1 }) } = none) := by
  repeat' apply And.intro
  · intro x _; cases x <;> (repeat' apply And.intro) <;> decide +kernel
  all_goals decide +kernel

/-- A region of rule 0 on churn 0 with 4 frames, and the step open. -/
def region (s : State) : State :=
  opened (wr (wr (wr s (.prmCfg 0) (pack [(63, 1), (0, 1)])) (.prmSize 0) 4) (.prmBuf0 0) 0)

theorem test_meets_ChurnOpIssue :
    let s := withD { D5 with w0 := pack [(23, 1)] } (withG 1 1 (withC 1 (ctx 0 131072) run)); let D := tR s 0
    Issues (.cop G 0 1) G s ∧ (tR run 0).chmask = 0 ∧ copOk (withC 1 (ctx 1 0) s) D (gR s 1) = false ∧
    (D.chmask ≠ 0 ∧ copOk s D (gR s 1) = true ∧ creditsAll s D.chmask = true ∧ creditsAll (noCredit s) D.chmask = false) ∧
    Issues (.upd G 0 1) G s ∧ updOk s D = false ∧ (updOk (region s) D = true ∧ creditsAll (region s) D.chmask = true) ∧
    creditsAll (noCredit (region s)) D.chmask = false := by
  unfold Issues; decide +kernel

theorem test_meets_Tickets :
    let s := withD D5 run; let D := tR s 0; let t := withG 1 0x100 { s with tickets := [(0, { taken := true, seq := 1 })] }
    Issues (.tkt G 1 0) G s ∧ (tR run 0).recipe = 0 ∧ D.recipe ≠ 0 ∧ freeSlot (fullSlots s) = none ∧ freeSlot s = some 0 ∧
    ccpReady (noCcp s) = false ∧ ccpReady s = true ∧ mwf ({} : Ticket) s.tickets = true ∧ Issues (.tkw G 1) G t ∧
    ((ticketAt t (fld (gR t 1) 7 0)).taken = true ∧ (ticketAt t (fld (gR t 1) 7 0)).seq.toNat = fld (gR t 1) 15 8) ∧
    (ticketAt s (fld (gR s 1) 7 0)).taken = false := by
  unfold Issues; decide +kernel

theorem test_meets_Semaphores :
    let s := withG 2 3 (withG 1 4095 run); let p := setPair s 4095 { full := 3, empty := 65532 }
    let o := setPair s 4095 { full := 65533, empty := 65533 }; let c := withC 1 { ctx 1 0 with w := [pack [(62, 1), (35, 4095)]] } p
    (Issues (.sacq G 1 2 1) G s ∧ Issues (.srel G 1 2 0) G s ∧ (gR s 1).toNat < 4096 ∧ (gR s 2).toNat < 65536) ∧
    (pairAt s 4095).full.toNat < 3 ∧ 3 ≤ (pairAt p 4095).full.toNat ∧ (takerOf c 4095).isSome = true ∧ (takerOf p 4095).isNone = true ∧
    (pairAt s 4095).empty.toNat < 3 ∧ 3 ≤ (pairAt p 4095).empty.toNat ∧ (pairAt p 4095).empty.toNat + 3 ≤ 65535 ∧
    65535 < (pairAt o 4095).empty.toNat + 3 ∧ (pairAt p 4095).full.toNat + 3 ≤ 65535 ∧ 65535 < (pairAt o 4095).full.toNat + 3 ∧
    4096 ≤ (gR (withG 1 4096 run) 1).toNat ∧ 65536 ≤ (gR (withG 2 65536 run) 2).toNat := by
  unfold Issues; decide +kernel

/-- The program's op is at work. -/
def working (s : State) : State := { s with tasks := [{ id := 1, left := 1 }] }

/-- Hub channel 0 works for an hmv. -/
def hmvWorks (s : State) : State := { s with hub := vset s.hub 0 { st := .active, job := .hmv 0 } }

theorem test_meets_Fences :
    (∀ sc : BitVec 2, canIssue (.fence G sc) run = true ∧ wf (.fence G sc) = true) ∧ churnWork run = false ∧ churnWork (working run) = true ∧
    hubWork run = false ∧ hubWork (hmvWorks run) = true ∧ ticketWork run = false ∧ ticketWork (fullSlots run) = true ∧
    anyWork run = false ∧ anyWork (working run) = true ∧ readWork run = false ∧
    readWork { run with readback := [{ ring := false, pp := false, chip := 0, addr := 0 }] } = true ∧
    Issues (.lfence G) G run ∧ queuesEmpty run = true ∧ run.sep.held = none ∧
    Issues (.lfence G) G { working run with sep := { run.sep with held := some (.lfence G) } } := by
  unfold Issues; decide +kernel

theorem test_meets_HubMoves :
    let s := withG 2 63 (withG 1 262080 run)
    Issues (.hmv G 1 2) G s ∧ ((gR s 2).toNat < 64 ∧ (gR s 1).toNat % 64 = 0 ∧ (gR s 1).toNat < 262144 ∧
      isSystem (.hub ((gR s 2).setWidth 6)) = false ∧ hostOwned s (.hub ((gR s 2).setWidth 6)) = false) ∧
    (64 ≤ (gR (withG 2 64 s) 2).toNat ∧ (gR (withG 1 32 s) 1).toNat % 64 ≠ 0 ∧ isSystem (.hub 24) = true ∧
      hostOwned (wr s .mvHown 1) (.hub 0) = true) ∧
    (chanAt s (.hub 63)).st = .idle ∧ (chanAt (hmvWorks s) (.hub 0)).st ≠ .idle ∧ Issues (.hwt G 1 1) G s := by
  unfold Issues; decide +kernel

theorem test_meets_StepOpening : Issues (.epbeg G) G run ∧ run.step.open_ = false ∧ (7 : Nat) < 8 := by
  unfold Issues; decide +kernel

theorem test_meets_StepInstructions :
    let o := opened run; let c := { o with step := { o.step with lastRdy := true } }
    Issues (.epbeg G) G o ∧ o.step.open_ = true ∧ run.step.open_ = false ∧ Issues (.eprdy G 1) G o ∧
    updWork { o with tasks := [{ op := { kind := .upd } }] } = true ∧ (updWork o = false ∧ o.step.blk = 0) ∧
    ({ o with step := { o.step with blk := 2 } } : State).step.blk ≠ 0 ∧ Issues (.snap G) G o ∧ Issues (.epcmt G) G c ∧
    (c.step.open_ = true ∧ c.step.lastRdy = true ∧ c.step.pabt = false ∧ c.step.rolling = false ∧ c.step.flipped = false ∧ c.step.pcmt = false) ∧
    o.step.lastRdy = false ∧ (holdsFree c = true ∧ c.snap.busy = false ∧ c.step.snapFlag = false ∧
      ({ c with step := { c.step with pcmt := true } } : State).step.pcmt = true) ∧
    holdsFree { region run with holds := [(0, 1)] } = false ∧ Issues (.eprb G) G o ∧
    (churnWork o = false ∧ hubWork o = false ∧ o.step.sweep = false) ∧
    (let r := { o with step := { o.step with rolling := true, sweep := true } };
      Issues (.eprb G) G r ∧ r.step.rolling = true ∧ r.step.sweep = true) ∧
    (let r := { o with step := { o.step with rolling := true } };
      Issues (.eprb G) G r ∧ r.step.rolling = true ∧ r.step.sweep = false) ∧ live o = true := by
  unfold Issues; decide +kernel

theorem test_meets_SeparatorControl :
    live run = true ∧ mwf 0 run.regs = true ∧ O.size ≠ .high ∧ H.size = .high ∧ up.sep.st ≠ .running ∧ run.sep.st = .running := by
  decide +kernel

theorem test_meets_SeparatorMemories : live run = true ∧ mwf 0 run.imem = true ∧ mwf 0 run.dmem = true := by decide +kernel

/-- Churn 0 is `c`. -/
def churn0 (c : Churn) (s : State) : State := setChurn s 0 c

/-- An ACTIVE churn that runs `o`. -/
def runs (o : RunOp) : State := churn0 { pwr := .active, run := [o] } up

theorem test_meets_ChurnQueues :
    let q (k : OpKind) : State := churn0 { pwr := .active, coming := [{ kind := k }], queue := [{ kind := k, ga := 1 }] } up
    live up = true ∧ (churnAt up 0).coming = [] ∧ (churnAt up 0).queue = [] ∧ (churnAt (q .sin) 0).coming = { kind := .sin } :: [] ∧
    (churnAt (q .cop) 0).queue = { kind := .cop, ga := 1 } :: [] ∧ canDispatch (q .cop) 0 { kind := .cop, ga := 1 } = true ∧
    isCop 1 { kind := .cop, ga := 1 } = true ∧ canDispatch (churn0 {} up) 0 { kind := .cop, ga := 1 } = false := by decide +kernel

theorem test_meets_ChurnOpStarts :
    ∀ k ∈ [OpKind.sin, .sout, .upd, .cop], let o : RunOp := { op := { id := 4, kind := k, ga := 1, elems := 16384 } }; let s := runs o
      live s = true ∧ runAt s 0 4 = some o ∧ (churnAt s 0).pwr = .active ∧ o.started = false ∧ o.aborted = false ∧
      firstOn (churnAt s 0) o = true := by decide +kernel

/-- The conditions of the further clauses: what is legal, and what is not. -/
theorem test_meets_ChurnOpStarts_legal :
    sinLegal (ctx 0 16384) { kind := .sin } = true ∧ copLegal { kind := .cop, ga := 1 } = true ∧ copLegal { kind := .cop, ga := 3 } = false ∧
    isCop 1 { kind := .cop, ga := 1 } = true ∧ isCop 2 { kind := .cop, ga := 2 } = true ∧ isCop 3 { kind := .cop, ga := 3 } = true ∧
    chainLegal up 0 { steps := 0x11 } = false ∧ chainLegal up 0 {} = true := by decide +kernel

theorem test_meets_ChurnOpCompletions :
    let d (k : OpKind) : RunOp := { op := { id := 4, kind := k, desc := D5 }, started := true, flushed := true, refused := true, aborted := true }
    let w (k : OpKind) : RunOp := { op := { id := 4, kind := k, desc := D5 } }
    let t : Task := { id := 4, op := { id := 4, desc := D5 }, left := 1 }
    (∀ k ∈ [OpKind.sin, .sout, .cop, .upd], runAt (runs (d k)) 0 4 = some (d k) ∧ runAt (runs (w k)) 0 4 = some (w k)) ∧
    (sinDone (runs (d .sin)) 0 (d .sin) = true ∧ sinDone (runs (w .sin)) 0 (w .sin) = false) ∧
    (soutDone (runs (d .sout)) 0 (d .sout) = true ∧ soutDone (runs (w .sout)) 0 (w .sout) = false) ∧
    (copDone (runs (d .cop)) 0 (d .cop) = true ∧ copDone (runs (w .cop)) 0 (w .cop) = false) ∧
    (updDone (runs (d .upd)) 0 (d .upd) = true ∧ updDone (runs (w .upd)) 0 (w .upd) = false) ∧
    (let s := { withE 5 { E5 with st := .filling } (runs (w .sin)) with tasks := [t] };
      s.tasks.find? (fun t => t.id == 4) = some t ∧ mwf ({} : Entry) s.dir = true ∧ t.left &&& ~~~ BitVec.ofNat 32 (2 ^ 0) = 0 ∧
      (entAt s t.op.desc.entry).st = .filling) ∧
    (3 : BitVec 32) &&& ~~~ BitVec.ofNat 32 (2 ^ 0) ≠ 0 := by
  decide +kernel

theorem test_meets_DeliveriesAndRows :
    let u : FUnit := { u := 0, q := 0 }
    let o : RunOp := { op := { id := 4, kind := .sout }, started := true, units := [u] }
    (live (runs o) = true ∧ runAt (runs o) 0 4 = some o ∧ o.op.kind = .sout ∧ o.started = true ∧ (churnAt (runs o) 0).pwr = .active ∧
      o.units = u :: [] ∧ o.barrier = false ∧
      (ctxAt (runs o) o.op.desc.ctx).rel.toNat + 2 * (ctxAt (runs o) o.op.desc.ctx).ht ≤ unitTile (runs o) o u) ∧
    runAt up 0 4 = none ∧ up.flits = [] ∧
    (let f : RowFlit := { id := 4, step := 0, row := 2, seg := 0, home := 0, s1 := 0, s2 := 0, dst := some 0 };
      f ∈ { up with flits := [f] }.flits ∧ f.arrived = false) := by
  decide +kernel

theorem test_meets_CcpMessages :
    let s := { up with tickets := [(0, { taken := true, seq := 1, inst := some 0 })] }; let o := opened s
    live s = true ∧ linkOk s .ccp = true ∧ hasRx s .ccp 1 = true ∧ mwf ({} : Ticket) s.tickets = true ∧ mwf ({} : Pair) s.pairs = true ∧
    (ticketAt s (fld (0x101 : Word) 7 0)).taken = false ∧
    ((ticketAt s (fld (0x100 : Word) 7 0)).taken = true ∧ (ticketAt s (fld (0x100 : Word) 7 0)).seq.toNat = fld (0x100 : Word) 15 8) ∧
    fld (0x100 : Word) 19 16 = 0 ∧ fld (0x20100 : Word) 19 16 = 2 ∧ fld (0x10100 : Word) 19 16 = 1 ∧
    (o.step.open_ = true ∧ (ticketAt o 0).inst = some o.step.inst) ∧ s.step.open_ = false ∧
    ((0x20001 : Word).getLsbD 12 = false ∧ (pairAt s 1).full.toNat + fld (0x20001 : Word) 31 16 ≤ 65535) ∧
    ((0x21001 : Word).getLsbD 12 = true ∧ (pairAt s 1).empty.toNat + fld (0x21001 : Word) 31 16 ≤ 65535) ∧
    65535 < (pairAt (setPair s 1 { full := 65534 }) 1).full.toNat + fld (0x20001 : Word) 31 16 ∧
    fld (5 : BitVec 128) 7 0 ∉ [2, 3, 4] ∧ (ctxAt s 0).st ≠ .opened := by
  decide +kernel

theorem test_meets_Contexts :
    let s := wr (wr (wr (wr up .ctxSel 3) (.ctxData 0) (pack [(62, 0), (32, 0), (0, 1)])) (.ctxData 1) 16384) (.ctxData 6) 0
    let c : Ctx := { w := (List.range 8).map fun k => rd s (.ctxData k), st := .opened }
    let t : Task := { id := 4, deadline := 9, base := some 0 }; let p := { up with sys := { up.sys with mode := 2 }, tasks := [t] }
    (live s = true ∧ mwf ({} : Ctx) s.ctxs = true ∧ mwf ({} : Pair) s.pairs = true ∧ mwf 0 s.regs = true) ∧
    ((tasksOn s 3).isEmpty = true ∧ ctxCheck s 3 c = true) ∧ ctxCheck up 0 { w := (List.range 8).map fun k => rd up (.ctxData k), st := .opened } = false ∧
    (p.tasks.find? (fun t => t.id == 4) = some t ∧ p.sys.mode = 2 ∧ t.deadline ≠ 0 ∧ t.base.isSome = true ∧ t.missed = false) ∧
    up.sys.mode ≠ 2 ∧ setInUse s 1 = false ∧ setInUse (withE 5 { E5 with swt := 1 } s) 1 = true := by
  decide +kernel

/-- System channel 24 works on `j` and has nothing left to move. -/
def sysDone (j : Job) (s : State) : State := { s with hub := vset s.hub 24 { st := .active, job := j } }

/-- System channel 24 works on `j` and has a read outstanding. -/
def sysOwed (j : Job) (s : State) : State :=
  { sysDone j s with inflight := [{ port := .hbp, tag := 0, rd := true, addr := 0, len := 64, owner := .chanRd 24 0 }] }

theorem test_meets_CellarWork :
    let c (m : Bool) : State := churn0 { chunks := [(3, { e := 5, marked := m })] } up
    let o : ChurnOp := { id := 4, kind := .reenc, desc := D5, mask := 1 }
    let r (f : Bool) : State := { withE 5 E5 (runs { op := o, flushed := f }) with tasks := [{ id := 4, op := o }] }
    let e := withE 5 E5 up; let d (x : ESt) (f : Bool) : State := { withE 5 { E5 with st := x } up with deferred := [(7, { entry := 5, failed := f })] }
    (live e = true ∧ mwf ({} : Entry) e.dir = true) ∧ ((churnAt (c false) 0).chunks.all (fun x => !x.2.marked)) = true ∧
    ((churnAt (c true) 0).chunks.any (fun x => x.2.marked)) = true ∧
    (reencOf (r true) 5 = some o ∧ reencDone (r true) o = true ∧ reencDone (r false) o = false) ∧ reencOf e 5 = none ∧
    (jobOn (sysDone (.spill 5 true) e) (fun j => match j with | .spill f _ => f == 5 | _ => false) = some (.hub 24) ∧
      (chanAt (sysDone (.spill 5 true) e) (.hub 24)).job = .spill 5 true ∧ xferDone (sysDone (.spill 5 true) e) 24 = true ∧
      xferDone (sysOwed (.spill 5 true) e) 24 = false) ∧
    (jobOn (sysDone (.recall 5) e) (fun j => j == .recall 5) = some (.hub 24) ∧ xferDone (sysDone (.recall 5) e) 24 = true ∧
      (∀ m, m < 32 → mapOwed (sysDone (.recall 5) e) m 5 = false) ∧ xferDone (sysOwed (.recall 5) e) 24 = false) ∧
    (e.deferred.find? (fun d => d.1 == 7) = none ∧ (d .resident false).deferred.find? (fun d => d.1 == 7) = some (7, { entry := 5 })) ∧
    (entAt (d .spilled false) 5).st ≠ .resident ∧ (entAt (d .resident false) 5).st = .resident ∧ reencoding (d .resident false) 5 = false ∧
    (d .spilled true).deferred.find? (fun d => d.1 == 7) = some (7, { entry := 5, failed := true }) := by
  decide +kernel

theorem test_meets_SelectorsAndTables :
    let z : List Word := List.replicate 68 0
    let gens (x : GSt) (r : BitVec 20) : State := churn0 { pwr := .active, gens := Vector.replicate 16 { st := x, refs := r, img := z } } up
    (live up = true ∧ mwf 0 up.regs = true) ∧ (withE 5 { E5 with st := .spilled } up).dir.any (fun x => hasCold x.2) = true ∧
    (stored O .coldSize 0 (wr up .coldSize 9)).toNat ≤ (rd (wr up .coldSize 9) .coldSize).toNat ∧ up.dir.any (fun x => hasCold x.2) = false ∧
    ({ up with cbJob := { op := 1, left := 1 }, ftJob := { op := 1, left := 1 } } : State).cbJob.left ≠ 0 ∧ up.cbJob.left = 0 ∧ up.ftJob.left = 0 ∧
    imgLegal ((List.range 68).map fun w => rd up (.cbStage w)) = true ∧
    imgLegal ((List.range 68).map fun w => rd (wr up (.cbStage 0) 0x11) (.cbStage w)) = true ∧
    imgLegal ((List.range 68).map fun w => rd (wr up (.cbStage 16) 0xFFFFFFFFFFFFFFFF) (.cbStage w)) = false ∧
    (∀ n, n < 32 → (0xFFFFFFFF : BitVec 32).getLsbD n = true → (vget {} (churnAt up n).gens 3 : Gen).st = .free) ∧
    ((vget {} (churnAt (gens .live 0) 0).gens 3 : Gen).st = .live ∧ (vget {} (churnAt (gens .live 2) 0).gens 3 : Gen).refs ≠ 0) ∧
    up.sys.mode ≠ 4 ∧ genHeld (gens .live 2) 0 3 = false ∧ draining (churnAt up 0) 3 = false ∧
    idleBank (churnAt up 0) 3 = none ∧ (idleBank (loadBank 3 z (churnAt up 0)) 3).isSome = true ∧
    tabLegal true 0 (ftImage 0 up) = true ∧ tabLegal false 0 (ftImage 0 (wr up (.ftStage 0) 0x7F800000)) = false := by
  decide +kernel

/-- Hub channel 33 is `c`, and host software owns it. -/
def chan33 (c : Chan) : State := wr { up with hub := vset up.hub 33 c } .mvHown (2 ^ 33)

theorem test_meets_ChannelCommands :
    (∀ x ∈ [ChSt.idle, .queued, .active, .halted, .aborting], (chanAt (chan33 { st := x }) (.hub 33)).st = x ∧
      hostOwned (chan33 { st := x }) (.hub 33) = true ∧ live (chan33 { st := x }) = true) ∧
    hostOwned up (.hub 33) = false ∧ isSystem (.hub 31) = true ∧ isSystem (.hub 33) = false ∧ (churnAt (runs {}) 0).pwr = .active ∧
    (chanAt (chan33 { pend := true }) (.hub 33)).pend = true ∧ (chanAt (chan33 {}) (.hub 33)).pend = false := by
  decide +kernel

theorem test_meets_ChannelEvents :
    let q := chan33 { st := .queued, act := { len := 64, cfg := 1 } }; let a := chan33 { st := .aborting }; let d := chan33 { st := .active }
    live q = true ∧ ((chanAt q (.hub 33)).st = .queued ∧ canStart q (.hub 33) = true) ∧ (chanAt d (.hub 33)).st ≠ .queued ∧
    (canStart (chan33 { st := .queued, act := { len := 64 } }) (.hub 34) = false) ∧
    ((chanAt q (.hub 33)).job = .none ∧ (chanAt q (.hub 33)).x.failing = false ∧ (chanAt q (.hub 33)).act.bytes ≠ 0 ∧
      dscOk q (.hub 33) (chanAt q (.hub 33)).act = false) ∧
    ((chanAt a (.hub 33)).st = .aborting ∧ isSystem (.hub 33) = false ∧ xferBusy a 33 = false ∧
      (mget [] (chanAt a (.hub 33)).x.arr (chanAt a (.hub 33)).x.apos).isEmpty = true ∧ (chanAt a (.hub 33)).x.out.isEmpty = true) ∧
    xferDone up 33 = false ∧ (xferDone d 33 = true ∧ (chanAt d (.hub 33)).job = .none ∧ isSystem (.hub 33) = false) ∧
    (xferDone (sysDone (.load 0) up) 24 = true ∧ isSystem (.hub 24) = true) ∧
    ((chanAt d (.hub 33)).pend = false ∧ bit (chanAt d (.hub 33)).act.cfg 30 = false ∧ (chanAt d (.hub 33)).x.bounced = []) := by
  decide +kernel

/-- A request in flight on MP port 3 under tag 9. -/
def flight : Flight := { port := .mp 3, tag := 9, rd := true, addr := 0, len := 64, owner := .window 0 0 }

theorem test_meets_ResponsesAndLinks :
    let f := { up with inflight := [flight] }; let l : State := { up with late := [(.mp 3, 9)] }
    let mine (f : Flight) : Bool := f.port == .mp 3 && f.tag == 9
    (live up = true ∧ linkOk up (.mp 3) = true ∧ isRequester (.mp 3) = true) ∧ (up.inflight.any mine = false ∧ up.late.contains (.mp 3, 9) = false) ∧
    (l.inflight.any mine = false ∧ l.late.contains (.mp 3, 9) = true) ∧ takeOut mine f.inflight = some (flight, []) ∧
    linkOk (setPort up (.mp 3) {}) (.mp 3) = false ∧ tmoField f (.mp 3) ≠ 0 ∧ tmoField (wr f .flTmo 0) (.mp 3) = 0 ∧
    ((portAt up (.mp 3)).hdr.toNat + 15 ≤ 65535 ∧ (portAt up (.mp 3)).dat.toNat + 255 ≤ 65535) ∧
    65535 < (portAt (setPort up (.mp 3) { hdr := 65530 }) (.mp 3)).hdr.toNat + 15 ∧
    ((portAt up .hbp).inUp = true ∧ (portAt up .hbp).outUp = true ∧ up.snap.rbusy = false) ∧ (portAt (setPort up .pp {}) .pp).inUp = false ∧
    (let s := setPort up .pp { outUp := true }; (portAt s .pp).inUp = false ∧ (portAt s .pp).outUp = true) ∧
    (let s := setPort up .pp { inUp := true }; (portAt s .pp).inUp = true ∧ (portAt s .pp).outUp = false) := by
  decide +kernel

/-- A request of one opcode with its data. -/
def req (opc : BitVec 8) (addr : Word) (n : Nat) : Req :=
  { opc := opc, tag := 1, oc := 0, chip := 7, len := BitVec.ofNat 12 (n - 1), addr := addr, rid := 0, beOk := true,
    data := if opc = 1 then [] else List.replicate n 0 }

theorem test_meets_HostRequests :
    let r := req 2 0 8; let w := req 3 (2 ^ 62) 64; let c := cellar up
    (arrivesB up .cp 1 = true ∧ ordered up .cp 0 2 = false ∧ ordered { up with bridges := [.cpRequest r] } .cp 0 2 = true) ∧
    (regAt 0x68).isNone = true ∧ ((regAt 0).map Reg.off = some 0 ∧ (churnReady .chipId up).isNone = true ∧ malformed [1, 2] { r with oc := 2 } = false ∧
      accessSize 0 (r.len.toNat + 1) = some .full ∧ r.opc = 2 ∧ (req 1 0 8).opc = 1) ∧
    (churnReady (.chLag 0) up).isSome = true ∧ accessSize 0 16 = none ∧ nonPosted 1 = true ∧ nonPosted 2 = true ∧
    (live { up with sys := { up.sys with lock := false } } = false ∧ accepts { up with sys := { up.sys with lock := false } } = true ∧
      fclkOn { up with sys := { up.sys with lock := false } } = false) ∧ linkOk (setPort up .cp {}) .cp = false ∧
    hasRx (setPort up .cp { outUp := true, inUp := true }) .cp 1 = false ∧
    (arrivesB up .hbp 1 = true ∧ ordered up .hbp 0 w.oc = false ∧ malformed [1, 3] w = false ∧ w.addr.toNat / 2 ^ 62 = 1 ∧
      w.addr.toNat % 2 ^ 62 + w.len.toNat + 1 ≤ 2 ^ 26) ∧
    (bit (rd (wr up .hbCfg 4) .hbCfg) 2 = true ∧ (5 : BitVec 16) ≠ (rd up .hbRid).setWidth 16) ∧ bit (rd up .hbCfg) 2 = false ∧
    (inCellar c (rd c .celBase).toNat 64 = true ∧ bit (rd c .hbCfg) 1 = false) ∧ inCellar up 0 64 = false ∧
    2 ≤ (req 3 (2 ^ 63) 64).addr.toNat / 2 ^ 62 ∧ 2 ^ 26 < (2 ^ 26 : Nat) + w.len.toNat + 1 ∧
    (let f := wr up .hbCfg 1; bit (rd f .hbCfg) 0 = true ∧ dpaEnd < 2 ^ 42 - 64 + 63 + 1) := by
  decide +kernel

/-- A held unit of peer 7, in full, and the key of slot 0. -/
def unit7 : HeldUnit := { chip := 7, unit := 2, data := (List.range 8).map fun i => (i, List.replicate 512 0), wrs := [], ocs := [0] }
def sealed (s : State) : State := wr s .cryptCfg 2
def keyed (s : State) : State := { s with keys := vset s.keys 0 { valid := true } }

theorem test_meets_PeerRequests :
    let c := withC 1 (ctx 0 16384) up; let g := { req 4 0x100000000 8 with data := [1, 0, 0, 0, 0, 0, 0, 0] }
    let p := { g with addr := 0xF00000000002 }; let w := req 3 0x100000000 64
    let o : RunOp := { op := { id := 4, kind := .sin, desc := { w0 := pack [(23, 1)] } }, started := true }
    let t := withC 1 (ctx 0 16384) (runs o)
    (arrivesB c (.fp 0) 1 = true ∧ ordered c (.fp 0) 0 g.oc = false ∧ g.opc = 4 ∧ g.oc ≠ 3 ∧ g.beOk = true ∧ g.data.length = 8 ∧ g.len = 7 ∧
      allZero (g.data.drop 2) = true ∧ fld g.addr 63 46 = 0 ∧ fld g.addr 31 1 = 0 ∧ (ctxAt c (fld g.addr 45 32)).st = .opened ∧
      (ctxAt up (fld g.addr 45 32)).st ≠ .opened) ∧
    (arrivesB up .pp 1 = true ∧ ordered up .pp p.chip p.oc = false ∧ fld p.addr 63 48 = 0 ∧
      fld p.addr 47 44 = 15 ∧ fld p.addr 43 13 = 0 ∧ fld g.addr 47 44 ≠ 15) ∧
    semFits (setPair up 0 { full := 65535 }) 0 false 1 = false ∧
    (arrivesB c (.fp 0) (cdiv (w.len.toNat + 1) 64) = true ∧ malformed [3] w = false ∧ (ctxAt c 1).st = .opened ∧ (ctxAt c 1).kind = 0 ∧
      fld w.addr 31 0 + w.len.toNat + 1 ≤ ctxShare c 0 1 ∧ waitsBefore c 0 1 = false ∧ takerOp c 0 1 = none) ∧
    (takerOp t 0 1 = some o ∧ (churnAt t 0).pwr = .active ∧ fld w.addr 31 0 = nxt o 1 ∧ opFull o = false ∧ fld (w.addr + 64) 31 0 ≠ nxt o 1) ∧
    ctxShare c 0 1 < fld (0x1FFFFFFC0 : Word) 31 0 + 64 ∧
    (arrivesB up .pp 1 = true ∧ malformed [1, 2, 3] w = false ∧ cryptMode up ≠ 2 ∧ w.addr.toNat + w.len.toNat + 1 ≤ dpaEnd ∧
      dpaEnd < (req 3 0x80000000000 64).addr.toNat + 64) := by
  decide +kernel

theorem test_meets_PeerRequests_sealed :
    let r := req 3 0xE00000000002 64; let s := sealed { up with units := [unit7] }; let d := { req 1 0xE00000000002 64 with chip := 8 }
    let own (u : HeldUnit) : Bool := u.chip == r.chip && u.unit == r.addr.setWidth 36 && u.data.length == 8
    (arrivesB s .pp 1 = true ∧ ordered s .pp r.chip r.oc = false ∧ malformed [1, 2, 3] r = false ∧ r.opc = 3 ∧ cryptMode s = 2 ∧
      isSealWin r.addr = true ∧ r.len.toNat = 63) ∧
    (sealed up).units.find? own = none ∧ (s.units.find? own = some unit7 ∧ (keyAt s (fld r.addr 38 36)).valid = false) ∧
    (keyAt (keyed s) (fld r.addr 38 36)).valid = true ∧
    (ordered s .pp d.chip d.oc = false ∧ d.opc = 1 ∧ malformed [1, 2, 3] { d with addr := 0 } = false ∧ (d.addr.setWidth 36).toNat * 4096 + 4096 ≤ dpaEnd ∧
      copiesHeld s < 32) ∧ dpaEnd < (0xFFFFFFFFF : BitVec 36).toNat * 4096 + 4096 ∧
    (let c : State := { s with copies := List.replicate 32 { chip := 9, unit := 0, data := [], served := 0, slot := 0 } };
      32 ≤ copiesHeld c ∧ c.copies.find? (fun x => x.chip == 9 && x.unit == 0) = some { chip := 9, unit := 0, data := [], served := 0, slot := 0 }) := by
  decide +kernel

/-- Ring 3 is `x`, enabled with 16 slots. -/
def ring3 (x : Ring) : State := wr { up with rings := vset up.rings 3 x } (.ringCfg 3) 0x401

/-- Ring 3 executes a command of opcode `op` with arguments `a` and `b`. -/
def cmd3 (op : Nat) (a b : Word) (x : Ring) : State := ring3 { x with st := .executing, cmd := [pack [(40, op)], a, b] ++ List.replicate 13 0 }

theorem test_meets_RingControl :
    let i := ring3 { st := .idle, tail := 1 }; let s := ring3 { st := .stalled }; let e := ring3 { st := .executing }
    let f (g : Bool) (k : Nat) : State := ring3 { st := .fetching, gap := g, tries := k }
    let h := { f false 0 with inflight := [{ port := .hbp, tag := 0, rd := true, addr := 0, len := 128, owner := .fetch 3 }] }
    let good (s : State) (t : Nat) : Bool :=
      let z := ringN s 3; decide (t < 2 * z) && decide ((t + 2 * z - ringHead s 3) % (2 * z) ≤ z)
        && decide (((ringAt s 3).tail.toNat + 2 * z - ringHead s 3) % (2 * z) ≤ (t + 2 * z - ringHead s 3) % (2 * z))
    (live i = true ∧ mwf 0 i.regs = true) ∧ (i.rings[3].st ≠ .off ∧ (rd i (.ringCfg 3) ^^^ stored O (.ringCfg 3) 0x501 i) &&& ~~~ 1 ≠ 0) ∧
    ((ringAt up 3).st = .off ∧ bit (rd up (.ringCfg 3)) 0 = false ∧ bit (stored O (.ringCfg 3) 0x401 up) 0 = true) ∧
    ((rd i (.ringCfg 3) ^^^ stored O (.ringCfg 3) 0x400 i) &&& ~~~ 1 = 0 ∧ bit (rd i (.ringCfg 3)) 0 = true ∧
      bit (stored O (.ringCfg 3) 0x400 i) 0 = false) ∧ (ringAt e 3).st = .executing ∧ (ringAt s 3).st = .stalled ∧
    (good i 1 = true ∧ good i 16 = true ∧ good i 0 = false ∧ good i 17 = false) ∧
    (fetchNext i = some 3 ∧ fetchNext s ≠ some 3 ∧ fetchable i 3 = true) ∧
    ((ringAt (f true 1) 3).st = .fetching ∧ (ringAt (f true 1) 3).gap = true ∧ (ringAt (f true 1) 3).tries ≠ 0 ∧ (ringAt (f false 0) 3).gap = false) ∧
    ((f false 0).inflight.any (fun f => f.owner == .fetch 3) = false ∧ (takeOut (fun (f : Flight) => f.owner == .fetch 3) h.inflight).isSome = true) ∧
    ((ringAt (f false 0) 3).disabling = false ∧ statErr 2 ≠ 0 ∧ statErr 0 = 0 ∧ cmdLegal [2 ^ 63] = true ∧ cmdLegal [2 ^ 63 + 2 ^ 43] = false ∧
      fld (2 ^ 63 : Word) 63 63 = (0 / ringN i 3 + 1) % 2 ∧ fld (2 ^ 63 : Word) 62 48 = 0 % 32768 ∧ fld (0 : Word) 63 63 ≠ (0 / ringN i 3 + 1) % 2 ∧
      max 1 (fld (rd i .cmdRetry) 15 0) ≤ 65535) ∧
    (unstarted (cmd3 1 0 0 {}) 3 = true ∧ (ringAt (cmd3 1 0 0 {}) 3).timedOut = false ∧ rd up .cmdTmo ≠ 0 ∧ unstarted i 3 = false) := by
  decide +kernel

theorem test_meets_RingCommands :
    let w := cmd3 0 0 0 {}; let b : State := { w with rings := vset (vset w.rings 3 { st := .executing, cmd := [pack [(34, 1)]] }) 5 { st := .executing } }
    let c := cellar (cmd3 3 (rd up .celBase) 64 {}); let m (o : Bool) : State := wr (cmd3 5 33 0 {}) .mvHown (if o then 2 ^ 33 else 0)
    (live w = true ∧ (∀ k, k < 8 → (ringAt (cmd3 k 0 0 {}) 3).st = .executing ∧ cmdOpc (ringAt (cmd3 k 0 0 {}) 3).cmd = k ∧
      bit (nth (ringAt (cmd3 k 0 0 {}) 3).cmd 0) 34 = false)) ∧ (ringAt up 3).st ≠ .executing ∧
    (cmdOpc (ringAt b 3).cmd = 0 ∧ (ringAt b 3).begun = false ∧ (ringAt b 3).started = false ∧ bit (nth (ringAt b 3).cmd 0) 34 = true ∧
      othersBusy b 3 = true) ∧ (nth (ringAt w 3).cmd 3).toNat < 16 ∧
    ((ringAt (cmd3 1 0 8 {}) 3).started = false ∧ (cmd3 1 0 8 {}).sep.st = .halted ∧ (∀ q, q < 16 → holdDone (cmd3 1 0 8 {}) q = false) ∧
      (cmdB (ringAt (cmd3 1 0 8 {}) 3).cmd).toNat ≤ 8) ∧ run.sep.st ≠ .halted ∧ holdDone (cmd3 1 0 0 { started := true }) 3 = true ∧
    ((ringAt (cmd3 2 0 0 {}) 3).begun = false ∧ (ringAt (cmd3 2 0 0 { begun := true, ended := true }) 3).ended = true) ∧
    (ladleSpace (ringAt c 3).cmd = 0 ∧ inCellar c (cmdA (ringAt c 3).cmd).toNat (ladleLen (ringAt c 3).cmd) = true ∧ bit (rd c .hbCfg) 1 = false) ∧
    (ladleSpace (ringAt (cmd3 3 0 0x208 {}) 3).cmd = 2 ∧ (cmd3 3 0 0x208 {}).sep.st ≠ .running ∧ (ringAt (cmd3 4 0 0x208 {}) 3).left = 0 ∧
      (ringAt (cmd3 4 0 0x208 {}) 3).bad = false) ∧
    (hostOwned (m true) (.hub 33) = true ∧ (chanAt (m true) (.hub 33)).st = .idle ∧ hostOwned (m false) (.hub 33) = false ∧
      (cmdA (ringAt (m true) 3).cmd).setWidth 6 = (33 : BitVec 6)) ∧
    ((pairAt up 1).full.toNat + 5 ≤ 65535 ∧ 65535 < (pairAt (setPair up 1 { full := 65533 }) 1).full.toNat + 5) ∧
    (fenceReady w (ringAt (cmd3 7 0 0 {}) 3) = true ∧ cmdB (ringAt (cmd3 7 0 0 {}) 3).cmd = 0 ∧ (ringAt (cmd3 7 0 0 {}) 3).ended = false ∧
      fenceReady (cmd3 7 0 0 {}) (ringAt (cmd3 7 0 0 { after := [(3, 0)] }) 3) = false) := by
  decide +kernel

theorem test_meets_HostRegisters :
    let p := { up with irqPend := 1 }; let e := wr up (.p2pCtl 1) 1
    (live up = true ∧ mwf 0 up.regs = true) ∧ (regAt 0x68).isNone = true ∧ (regAt 0).isSome = true ∧
    (inChurn .chipId = none ∧ inChurn (.chLag 3) = some 3 ∧ (churnAt up 3).pwr ≠ .active ∧ (churnAt (runs {}) 0).pwr = .active) ∧
    rcMask .chipId = 0 ∧ (p.irqPend.getLsbD 0 = true ∧ bit (stored O (.irqMsgCtl 0) 1 p) 2 = false ∧
      fld (stored O (.irqMsgCtl 0) 1 p) 1 0 ≠ 0 ∧ linkOk p .hbp = true) ∧
    (bit (rd e (.p2pCtl 1)) 0 = true ∧ regionUsed e 1 = false) ∧ (bit (rd up (.p2pCtl 1)) 0 = false ∧ bit (stored O (.p2pCtl 1) 1 up) 0 = true ∧
      fld (stored O (.p2pCtl 1) 1 up) 63 62 = 0 ∧ fld (stored O (.p2pCtl 1) 0x8000000000000001 up) 63 62 = 2) ∧
    bit (stored H (.p2pCtl 1) 1 up) 0 = false ∧ up.inflight.any (fun f => f.owner == .probe 1) = false ∧
    [{ flight with owner := .probe 1 }].any (fun f => f.owner == .probe 1) = true := by
  decide +kernel

theorem test_meets_RegionCommands :
    let r := region up; let o (k : Nat) : Word := stored O (.prmCfg 0) (BitVec.ofNat 64 k ||| 0x8000000000000000) r
    (live up = true ∧ mwf 0 up.regs = true ∧ mwf 0 up.holds = true) ∧ ((prm r 0).en = true ∧ r.step.open_ = true ∧ (prm up 0).en = false) ∧
    (let c := { r with step := up.step }; c.step.open_ = false ∧ updOn c 0 = false ∧
      updOn { c with tasks := [{ op := { kind := .upd } }] } 0 = true) ∧
    o 1 = rd r (.prmCfg 0) ∧ (o 0x4000000000000001 ≠ rd r (.prmCfg 0) ∧ (o 0x4000000000000001 ^^^ rd r (.prmCfg 0)) &&& ~~~ 0x5000000000000000 = 0) ∧
    (o 3 ^^^ rd r (.prmCfg 0)) &&& ~~~ 0x5000000000000000 ≠ 0 ∧
    (let s := wr up (.prmSize 0) (pack [(32, 4), (0, 4)]); bit (o 1) 63 = true ∧ prmCheck s { prm s 0 with cfg := o 1 } = true) ∧
    prmCheck up { prm up 0 with cfg := o 0x300000000 } = false ∧ bit (o 0x300000000) 63 = true ∧ bit (stored { H with size := .low } (.prmCfg 0) 0x8000000000000000 up) 63 = false ∧
    mget 0 ({ up with holds := [(0, 65535)] } : State).holds 0 = 65535 := by
  decide +kernel

theorem test_meets_StepRequestsAndSnapshots :
    let o := opened up; let d (x : Snap) : State := { up with snap := x }; let r := { up with sys := { up.sys with mode := 4 } }
    (live o = true ∧ o.step.open_ = true ∧ (0 : BitVec 32) = o.step.statStep ∧ o.step.pabt = false) ∧ (1 : BitVec 32) ≠ o.step.statStep ∧
    o.step.ready = false ∧ rd (wr up .snapInterval 0) .snapInterval = 0 ∧ rd (wr up .snapInterval 9) .snapInterval ≠ 0 ∧ up.snap.busy = false ∧
    ((d { busy := true }).snap.busy = true ∧ xferDone (d { busy := true }) snapNo = true ∧ snapCovered up = false ∧ linkOk up .hbp = true) ∧
    restoreOk up = false ∧ restoreOk r = true ∧ up.snap.phase ≠ 1 ∧
    ((d { rbusy := true, phase := 1 }).snap.rbusy = true ∧ xferDone (d { rbusy := true, phase := 1 }) snapNo = true) ∧ (4 : BitVec 3).toNat ≤ 4 := by
  decide +kernel

theorem test_meets_KeysAndStore :
    let n (o : NvOp) : State := { up with nv := { busy := some (o, 3) } }
    (mwf 0 up.regs = true ∧ mwf 0xFF up.nv.mem = true ∧ live up = true) ∧ slotUsed up 3 = false ∧
    slotUsed { up with copies := [{ chip := 9, unit := 0, data := [], served := 0, slot := 3 }] } 3 = true ∧
    (nvErr up .erase 119 = 0 ∧ nvErr up .program 3 = 0 ∧ nvErr up .read 120 = 1 ∧ nvErr { up with nv := { vdd := false } } .read 3 = 3 ∧
      nvErr (n .read) .read 3 = 4) ∧ up.nv.busy = none ∧ (n .erase).nv.busy = some (.erase, 3) := by
  decide +kernel

theorem test_meets_ResetsAndStartUp :
    let ph (p : BitVec 4) (w : Bool) : State := { up with sys := { up.sys with phase := p, warmStart := w, mode := 0 } }
    up.sys.aonLow = false ∧ ({ up with sys := { up.sys with aonLow := true } } : State).sys.aonLow = true ∧ up.sys.warm = false ∧ up.sys.cold = false ∧
    ({ up with sys := { up.sys with warm := true } } : State).sys.warm = true ∧ State.reset.sys.cold = true ∧ State.reset.sys.phase = 0 ∧
    live up = true ∧ O.size ≠ .high ∧ inReset State.reset = true ∧ up.step.open_ = false ∧ up.nv.busy = none ∧
    (∀ p ∈ [1, 2, 3, 4, 5, 6, 7], ∀ w, inReset (ph p w) = false ∧ (ph p w).sys.ref = true ∧ fclkOn (ph p w) = true) ∧
    bit (rd up .sysCtl) 3 = false ∧ inReset (ph 0 false) = false ∧ fclkOn { ph 5 false with sys := { (ph 5 false).sys with lock := false } } = false ∧
    up.sys.mode ≠ 0 ∧ (live (ph 8 false) = true ∧ (ph 8 false).sys.mode = 0) := by
  decide +kernel

theorem test_meets_ModesAndClocks :
    let m (k : BitVec 3) : State := { up with sys := { up.sys with mode := k } }
    let a := { up with sys := { up.sys with aons := true } }; let l := { up with sys := { up.sys with lock := false } }
    mwf 0 up.regs = true ∧ live up = true ∧ up.sep.st ≠ .running ∧ ((m 1).sys.mode.toNat = 1 ∧ (m 2).sys.mode.toNat = 2 ∧ (m 4).sys.mode.toNat = 4 ∧
      (m 4).snap.rbusy = false ∧ (m 3).sys.mode.toNat = 3) ∧ (∀ k, k < 8 → fld (BitVec.ofNat 64 k &&& sizeMask O.size) 2 0 = k) ∧
    fld ((0x100000000 : Word) &&& sizeMask .high) 2 0 = 0 ∧ aonOk up = true ∧ aonOk run = false ∧ inReset State.reset = true ∧ inReset up = false ∧
    (let q := { a with bridges := [.sig .pp (req 4 0 8)] }; a.sys.aons = true ∧ aonCause .request q = true ∧ inReset q = false ∧ aonCause .request a = false ∧
      aonCause .timer a = false) ∧ up.sys.aons = false ∧ up.sys.ref = true ∧
    ({ up with sys := { up.sys with ref := false } } : State).sys.ref = false ∧ locking up = false ∧ locking l = true := by
  decide +kernel

theorem test_meets_ChurnPower :
    let c (p : PSt) (w : Bool) : State := churn0 { pwr := p, waking := w } up
    live up = true ∧ (wakeCause up 0 = false ∧ (churnAt up 0).pwr ≠ .active) ∧ (wakeCause (c .sleep true) 0 = true ∧ (churnAt (c .sleep true) 0).pwr ≠ .active) ∧
    ((churnAt (c .off true) 0).waking = true ∧ (churnAt (c .off false) 0).waking = false) ∧
    (let s := churn0 { pwr := .active, lgup := 7 } up; (churnAt s 0).pwr = .active ∧ (churnAt s 0).lgup.toNat + 1 = 2 ^ (3 : BitVec 4).toNat ∧
      (churnAt s 0).lgup.toNat + 1 ≠ 2 ^ (4 : BitVec 4).toNat) ∧
    (churnQuiet (c .active false) 0 = true ∧ churnQuiet (runs {}) 0 = false ∧ (churnAt (runs {}) 0).pwr = .active) ∧
    ((churnAt (c .idle false) 0).pwr = .idle ∧ bit (rd up (.chPwrCtl 0)) 0 = true ∧ bit (rd up (.chPwrCtl 0)) 1 = false ∧
      dirtyEntries (churnAt (c .idle false) 0) = [] ∧ backOwed (c .idle false) 0 = false) ∧
    (offOk (c .sleep false) 0 = true ∧ offOk (c .active false) 0 = false ∧ O.size ≠ .high) ∧
    (mwf 0 up.regs = true ∧ bit ((2 : Word) &&& sizeMask O.size) 2 = false ∧ bit ((2 : Word) &&& sizeMask O.size) 1 = true ∧
      bit ((0 : Word) &&& sizeMask O.size) 1 = false) ∧ up.sys.droop = false ∧ 125 ≤ (200 : Byte).toNat := by
  decide +kernel

/-! ## The further clauses: one state for each case that the statements tell apart -/

/-- Instruction memory holds `w` at index 0. -/
def withI (w : Word) (s : State) : State := { s with imem := mset 0 s.imem 0 w }

/-- A command's outcome is a next state. -/
def nexts (o : Out) : Bool := match o with | .next _ => true | _ => false

theorem test_meets_EmptyQueueTicks_live :
    let u (s : State) : State := beforeSep s
    let n : Instr := .nop { pn := false, pr := 0 }; let b := withI 0x5400000000000000 run
    let h := { run with sep := { run.sep with held := some (.tkw G 1) } }
    (live up = true ∧ (u up).sep.st ≠ .running) ∧ (live run = true ∧ (u run).sep.st = .running ∧ (u run).sep.held = none) ∧
    sepDecode (mget 0 (u run).imem (u run).sep.pc.toNat) = some n ∧ nexts (exec n (u run)) = true ∧
    sepDecode (mget 0 (u b).imem (u b).sep.pc.toNat) = none ∧ ((u h).sep.held = some (.tkw G 1) ∧ nexts (exec (.tkw G 1) (u h)) = true) := by
  decide +kernel

theorem test_meets_FormingRequestsFrame :
    hubOn up = true ∧ hubOn { up with sys := { up.sys with lock := false } } = false ∧ (7 : Nat) < 8 ∧ (49 : Nat) < 64 := by decide +kernel

theorem test_meets_MemoryFormKept_step : Memory.wf run = true ∧ steps run (.st G 1 2 8) = true := by
  decide +kernel

theorem test_meets_EntryAfterMove_released :
    let c := withE 5 { E5 with st := .spilled, cold := 3 } up; let t := withE 5 { E5 with st := .spilling, refs := 1 } (sysDone (.spill 5 false) up)
    ((entAt c 5).st ≠ .spilling ∧ (entAt c 5).st ≠ .recalling ∧ reencOf c 5 = none ∧ (entAt c 5).refs = 0 ∧ hasCold (entAt c 5) = true) ∧
    (entAt (withE 5 { E5 with refs := 2 } up) 5).refs ≠ 0 ∧ hasCold (entAt (withE 5 E5 up) 5) = false ∧
    ((entAt t 5).st = .spilling ∧ reencOf t 5 = none ∧ (chanAt t (.hub 24)).st = .active ∧
      jobOn t (fun j => match j with | .spill f _ | .recall f => f == 5 | _ => false) = some (.hub 24)) := by decide +kernel

theorem test_meets_StreamOutIssue_deferred :
    let s := withD { D5 with w0 := pack [(47, 5), (23, 1)] } (withC 1 (ctx 1 16384) run); let D := tR s 0
    let e (x : ESt) (r : BitVec 8) : State := withE 5 { E5 with st := x, refs := r } s
    (∀ x ∈ [ESt.spilled, .recalling], Issues (.stout G 0 1) G (e x 254) ∧ stoutOk (e x 254) D = true ∧ (entAt (e x 254) D.entry).refs ≠ 255 ∧
      creditsAll (e x 254) D.chmask = true ∧ (entAt (e x 254) D.entry).st = x ∧ freeDefer (e x 254) = some 0) ∧
    ((entAt (e .dropped 0) D.entry).st = .dropped ∧ stoutCtxOk (withC 1 {} (e .dropped 0)) D = false) := by
  unfold Issues; decide +kernel

theorem test_meets_StepInstructions_ends :
    let o := opened run; let p := { o with step := { o.step with lastRdy := true, pabt := true } }
    let r := { withE 5 { E5 with st := .recalling, epoch := 3 } o with step := { o.step with rolling := true, depoch := 3 } }
    (Issues (.epcmt G) G p ∧ p.step.pabt = true ∧ p.step.rolling = false ∧ churnWork p = false ∧ hubWork p = false ∧ p.step.sweep = false) ∧
    regsWf o = true ∧ ({ o.step with schEn := 5 } : Step).schEn.getLsbD 2 = true ∧ o.step.schEn.getLsbD 2 = false ∧
    (Issues (.eprb G) G r ∧ r.step.rolling = true ∧ r.step.sweep = false ∧ mwf ({} : Entry) r.dir = true ∧ (entAt r 5).st ≠ .free ∧
      (entAt r 5).epoch = r.step.depoch) ∧
    (let c := { o with step := { o.step with lastRdy := true, pcmt := true, snapFlag := true } };
      c.step.snapFlag = true ∧ queuesEmpty c = true ∧ anyWork (working c) = true) := by
  unfold Issues; decide +kernel

theorem test_meets_SeparatorControl_stop :
    let f := { run with step := { run.step with flipped := true } }; live f = true ∧ mwf 0 f.regs = true ∧ f.step.flipped = true ∧
    run.step.flipped = false := by decide +kernel

theorem test_meets_ChurnQueues_sampled :
    let q (o : ChurnOp) : State := churn0 { pwr := .active, queue := [o] } up
    let so : ChurnOp := { kind := .sout, desc := { w3 := pack [(24, 1)] } }; let c9 : ChurnOp := { kind := .cop, ga := 9 }
    canDispatch (q so) 0 so = true ∧ canDispatch (q { kind := .upd }) 0 { kind := .upd } = true ∧
    (canDispatch (q c9) 0 c9 = true ∧ isCop 1 c9 = false ∧ isCop 2 c9 = false ∧ isCop 3 c9 = false) := by decide +kernel

/-- An op of one kind that is not started. -/
def idleOp (o : ChurnOp) : RunOp := { op := { o with id := 4 } }

theorem test_meets_ChurnOpStarts_refused :
    let lr := idleOp { kind := .sin, fmt := 0xB }; let g := idleOp { kind := .sin, gen := some 3 }; let z := idleOp { kind := .sin, noGen := true }
    let up' := idleOp { kind := .upd }; let fz (k : Nat) : State := wr (runs up') (.prmCfg 0) (BitVec.ofNat 64 (k * 2 ^ 60))
    (sinLegal (ctxAt (runs lr) 0) lr.op = false ∧ firstOn (churnAt (runs lr) 0) lr = true) ∧
    (sinLegal (ctxAt (runs g) 0) g.op = true ∧ g.op.gen = some 3) ∧ (sinLegal (ctxAt (runs z) 0) z.op = true ∧ z.op.gen = none ∧ z.op.noGen = true) ∧
    (runs up').step.schEn.getLsbD (fld (nth up'.rule 6) 6 4) = false ∧
    ((updPrm (fz 5) up'.op).frozen = true ∧ (updPrm (fz 5) up'.op).firq = true ∧ (updPrm (fz 4) up'.op).firq = false) ∧
    (∀ k ∈ [OpKind.sin, .sout, .cop, .upd], let o := idleOp { kind := k, ga := 1, elems := 16384 }; churnQuantum 0 (begun 0 o false (runs o)) = none) := by
  decide +kernel

/-- A context of kind IN with BSIG on pair 7. -/
def inBsig : Ctx := { w := [pack [(62, 0), (35, 7), (33, 1)], 0, 0, 0, 0, 0, 0, 0], st := .opened }

theorem test_meets_ChurnOpCompletions_ends :
    let d (k : OpKind) : RunOp := { op := { id := 4, kind := k, desc := D5 }, started := true, flushed := true, refused := true, aborted := true }
    let t (k : OpKind) (m : BitVec 32) : Task := { id := 4, op := { id := 4, kind := k, desc := D5 }, left := m }
    let s (k : OpKind) (m : BitVec 32) (x : ESt) : State :=
      { withC 0 inBsig (withE 5 { E5 with st := x, refs := 1 } (runs (d k))) with tasks := [t k m] }
    (∀ k ∈ [OpKind.sin, .sout, .cop, .upd], ∀ b : Bool, let m : BitVec 32 := if b then 1 else 3
      (s k m .filling).tasks.find? (fun t => t.id == 4) = some (t k m) ∧ runAt (s k m .filling) 0 4 = some (d k)) ∧
    (sinDone (s .sin 1 .filling) 0 (d .sin) = true ∧ soutDone (s .sout 1 .released) 0 (d .sout) = true ∧
      copDone (s .cop 3 .resident) 0 (d .cop) = true ∧ updDone (s .upd 1 .resident) 0 (d .upd) = true) ∧
    ((1 : BitVec 32) &&& ~~~ BitVec.ofNat 32 (2 ^ 0) = 0 ∧ (3 : BitVec 32) &&& ~~~ BitVec.ofNat 32 (2 ^ 0) ≠ 0) ∧
    (inBsig.kind = 0 ∧ inBsig.bsig = true ∧ inBsig.sem = 7 ∧ (pairAt up 7).full.toNat < 65535) ∧
    (mwf ({} : Entry) (s .sin 1 .filling).dir = true ∧ (entAt (s .sout 1 .released) 5).st = .released ∧ (ctxAt up 0).bsig = false) := by
  decide +kernel

/-- A stream-out op of one unit of 128 bytes, finished, to a context of 64-byte tiles in halves of two. -/
def tiled : RunOp :=
  { op := { id := 4, kind := .sout, elems := 64, desc := { w0 := pack [(23, 1)] } }, started := true
    units := [{ u := 0, q := 0, stage := 2, out := List.replicate 128 7 }] }
def tiles (s : State) : State := withC 1 { w := [pack [(62, 1), (0, 1)], 64, 0, 0, 0, 0, pack [(32, 2), (0, 64)], 0], st := .opened } s

theorem test_meets_DeliveriesAndRows_may :
    let s := tiles (runs tiled); let u : FUnit := tiled.units.headD { u := 0, q := 0 }; let x := ctxAt s 1
    let f : RowFlit := { id := 4, step := 0, row := 2, seg := 0, home := 0, s1 := 0, s2 := 0 }
    (tiled.aborted = false ∧ u.stage = 2 ∧ x.kind = 1 ∧ x.tile ≠ 0 ∧ unitTile s tiled u < x.rel.toNat + 2 * x.ht ∧ firstOut s 0 tiled.op = true) ∧
    (u.off + Min.min x.tile ((unitPlace s tiled u).1 - u.off) < (unitPlace s tiled u).1) ∧ churnQuantum 0 s = none ∧
    ({ up with flits := [f] }.flits.find? (fun f => f.id == 4 && f.row == 2 && f.seg == 0 && f.dst.isNone && !f.arrived && f.home.toNat == 0) = some f ∧
      runAt up 0 4 = none ∧ flitJob tiled f.step = none ∧ (flitJob (idleOp { kind := .cop }) f.step).isSome = true) := by
  decide +kernel

/-- The header of a CCP message of class `oc` with opcode `opc`. -/
def hdr (opc oc : Nat) : Word := pack [(56, opc), (38, oc)]

theorem test_meets_CcpMessages_headers :
    arrivesB up .ccp 1 = true ∧ (ordered up .ccp 0 ((hdr 5 1).extractLsb' 38 2) = false ∧ fld (hdr 5 1) 63 56 = 5 ∧ fld (hdr 5 1) 39 38 ≠ 3) ∧
    (fld (hdr 4 1) 63 56 ≠ 5 ∧ fld (hdr 5 3) 39 38 = 3) ∧
    ordered { up with bridges := [.layerStart ⟨hdr 5 2, 0⟩] } .ccp 0 ((hdr 5 2).extractLsb' 38 2) = true ∧
    (let b : BitVec 128 := hdr 5 1 ++ (9 : Word); b.extractLsb' 64 64 = hdr 5 1 ∧ fld b 7 0 ∉ [2, 3, 4]) := by
  decide +kernel

theorem test_meets_CellarWork_references :
    let r := withE 5 { E5 with st := .recalling, refs := 1, recRef := true } (sysDone (.recall 5) up)
    let l := { up with ladder := { up.ladder with actions := [{ e := 5, rung := .ret }] } }
    (jobOn r (fun j => j == .recall 5) = some (.hub 24) ∧ (entAt r 5).recRef = true ∧ (entAt (withE 5 E5 up) 5).recRef = false) ∧
    (markedBy (churn0 { chunks := [(3, { e := 5, marked := true })] } l) 0 5 ≠ 0 ∧ (∀ m, m < 32 → markedBy l m 5 = 0)) ∧
    (ladderEval up = up ∧ churnQuantum 0 up = none) := by
  decide +kernel

theorem test_meets_SelectorsAndTables_growth :
    (withE 5 { E5 with st := .spilled, cold := 3 } up).dir.any (fun x => hasCold x.2) = true ∧
    (rd up .coldSize).toNat < (stored O .coldSize 9 up).toNat := by decide +kernel

theorem test_meets_ChannelEvents_cases :
    let q := chan33 { st := .queued, act := { len := 64, cfg := 0x41 } }; let z := chan33 { st := .queued, act := { cfg := 0x41 } }
    let p := chan33 { st := .active, pend := true, sh := { len := 64 } }
    (dscOk q (.hub 33) (chanAt q (.hub 33)).act = true ∧ (chanAt q (.hub 33)).act.bytes ≠ 0 ∧ coverOf q (.hub 33) = .clear) ∧
    (dscOk z (.hub 33) (chanAt z (.hub 33)).act = true ∧ (chanAt z (.hub 33)).act.bytes = 0 ∧ canStart z (.hub 33) = true ∧
      (chanAt z (.hub 33)).pend = false) ∧
    (xferDone p 33 = true ∧ (chanAt p (.hub 33)).job = .none ∧ (chanAt p (.hub 33)).pend = true) ∧
    (chanAt (chan33 { st := .halted }) (.hub 33)).x.cover ≠ .sealPeer := by
  decide +kernel

theorem test_meets_ResponsesAndLinks_stopped :
    let l := { up with sys := { up.sys with lock := false } }
    (fclkOn l = false ∧ (portAt l .pp).inUp = true ∧ (portAt l .pp).outUp = true) ∧
    ({ up with sys := { up.sys with aons := true } } : State).sys.aons = true ∧ fclkOn up = true ∧
    (let g : Flight := { flight with owner := .gone };
      takeOut (fun f => f.port == .mp 3 && f.tag == 9) { up with inflight := [g] }.inflight = some (g, []) ∧ g.owner = .gone ∧ up.dead = [] ∧
      up.txq = []) := by decide +kernel

theorem test_meets_HostRequests_malformed :
    malformed [1, 3] (req 2 (2 ^ 62) 64) = true ∧ (req 2 (2 ^ 62) 64).addr.toNat / 2 ^ 62 ≠ 0 ∧
    (malformed [1, 3] (req 2 0 8) = true ∧ (0 : Nat) < 2 ^ 26 ∧ (regAt 0).isSome = true) := by decide +kernel

theorem test_meets_PeerRequests_waiting :
    let g := { req 4 0x100000000 8 with data := [1, 0, 0, 0, 0, 0, 0, 0] }; let w := req 3 0x100000000 64
    let d := req 2 0x2000 512; let b := { req 1 0xE00000000003 1 with oc := 2 }; let r := req 3 0xE00000000002 64
    (arrivesB up (.fp 0) 1 = true ∧ (churnAt up 0).pwr ≠ .active ∧ malformed [3] { w with oc := 3 } = true ∧ fld (0x400000000000 : Word) 63 46 ≠ 0) ∧
    (arrivesB (sealed up) .pp 8 = true ∧ malformed [1, 2, 3] d = false ∧ cryptMode (sealed up) = 2 ∧ isSealWin d.addr = false ∧ d.len.toNat = 511 ∧
      d.addr.toNat % 512 = 0 ∧ d.addr.toNat + 512 ≤ dpaEnd ∧
      (sealed up).units.find? (fun u => u.chip == d.chip && u.unit == BitVec.ofNat 36 (d.addr.toNat / 4096)) = none ∧
      (sealed up).units.length < 32 ∧ (waitingOc (sealed up) .pp d.chip).any (mustWait d.oc) = false ∧ 32 ≤ (List.replicate 32 unit7).length) ∧
    (arrivesB (sealed up) .pp 0 = true ∧ ordered (sealed up) .pp b.chip b.oc = false ∧ b.len = 0 ∧ isSealWin b.addr = true ∧
      (sealed up).peerFail.contains b.chip = false ∧ ({ up with peerFail := [7] } : State).peerFail.contains b.chip = true) ∧
    (recordWaits (sealed { up with units := [unit7] }) r = false ∧
      recordWaits (sealed { up with units := [unit7], bridges := [.ppTargetRequest { d with addr := 0x2000 }] }) r = true) ∧ g.opc = 4 := by
  decide +kernel

theorem test_meets_RingControl_again :
    let e := wr (ring3 { st := .executing, count := 5, disabling := true }) (.ringCfg 3) 0x400
    ((ringAt e 3).st = .executing ∧ (rd e (.ringCfg 3) ^^^ stored O (.ringCfg 3) 0x401 e) &&& ~~~ 1 = 0 ∧ bit (rd e (.ringCfg 3)) 0 = false ∧
      bit (stored O (.ringCfg 3) 0x401 e) 0 = true) ∧ (ringAt e 3).renew = false ∧ (nth [(2 : Word) ^ 63 + 2 ^ 43] 3).toNat < 16 := by
  decide +kernel

theorem test_meets_RingCommands_records :
    let s := ring3 { st := .executing, cmd := [0, 0, 0, 0x1000] ++ List.replicate 12 0 }
    let b := { s with inflight := [{ port := .hbp, tag := 0, rd := true, addr := 0, len := 128, owner := .gone }] }
    let l := cmd3 4 0 0x208 { begun := true, got := [(0, List.replicate 8 1)] }
    (16 ≤ (nth (ringAt s 3).cmd 3).toNat ∧ linkOk s .hbp = true ∧ s.txq.any (fun q => q.m.port == .hbp) = false ∧
      canDrive s (recordMsg s 3 0 0) none = true ∧ canDrive b (recordMsg b 3 0 0) none = false ∧ linkOk (setPort s .hbp {}) .hbp = false) ∧
    (ringAt (ring3 { st := .executing, closing := true }) 3).closing = true ∧
    ((ringAt l 3).closing = false ∧ (ringAt l 3).left = 0 ∧ (ringAt l 3).bad = false ∧ (nth (ringAt l 3).cmd 3).toNat < 16 ∧
      cuts 256 (cmdInl (ringAt l 3).cmd 0).toNat ((ringAt l 3).got.flatMap (·.2)).length = [] ++ [(0, 8)]) := by
  decide +kernel

theorem test_meets_StepRequestsAndSnapshots_due :
    let s := { wr up .snapInterval 9 with snap := { last := 4 } }; let t := { s with sys := { s.sys with aon := 13 } }
    s.sys.aon.toNat < s.snap.last.toNat + (rd s .snapInterval).toNat ∧
    (rd t .snapInterval ≠ 0 ∧ t.snap.last.toNat + (rd t .snapInterval).toNat ≤ t.sys.aon.toNat) ∧
    up.txq.any (fun q => q.m.port == .hbp) = false ∧ canDrive up (wrpMsg .hbp 136 (wordBytes 1) 2) none = true ∧
    canDrive { up with inflight := [{ flight with port := .hbp }] } (wrpMsg .hbp 136 (wordBytes 1) 2) none = false := by
  decide +kernel

theorem test_meets_KeysAndStore_transfer :
    let t := chan33 { st := .active, x := { cover := .sealHba, slot := 3 } }
    live t = true ∧ liveChans t = [.hub 33] ∧ t.snap.busy = false ∧ t.snap.rbusy = false ∧ (chanAt t (.hub 33)).st = .active ∧
    (chanAt t (.hub 33)).job = .none ∧ (chanAt t (.hub 33)).x.cover ≠ .clear ∧ (chanAt t (.hub 33)).x.slot.toNat = (3 : BitVec 3).toNat ∧
    (chanAt t (.hub 33)).x.failing = false ∧ (∀ j, j < 8 → slotUsed up j = false) ∧ live State.reset = false := by
  decide +kernel

theorem test_meets_ResetsAndStartUp_early :
    let ph : State := { up with sys := { up.sys with phase := 5, mode := 0 } }
    (inReset ph = false ∧ fclkOn ph = true ∧ ph.sys.phase ≠ 8) ∧ ((BitVec.ofNat 26 (Reg.off .sysCtl)).toNat / 8 * 8 = Reg.off .sysCtl) ∧
    ({ up.sys with droop := true } : Sys).droop = true ∧ ({ up with cbJob := { op := 1, left := 2 } } : State).cbJob.left ≠ 0 := by
  decide +kernel

theorem test_meets_ModesAndClocks_more :
    let a := wr { up with sys := { up.sys with aons := true, lock := false, aonWaking := true, aon := 9 } } .wakeAt 9
    locking a = true ∧ a.sys.aons = true ∧ (rd a .wakeAt ≠ 0 ∧ (rd a .wakeAt).toNat ≤ a.sys.aon.toNat) ∧
    ((∀ i, i < 68 → (vget {} up.ports i : Port).fell = false) ∧ linkOk (setPort up .hbp {}) .hbp = false) ∧ live State.reset = false := by
  decide +kernel

theorem test_meets_ChurnPower_sleep :
    let c (x : Churn) : State := churn0 { x with pwr := .idle } up; let d : MapLine := { key := 0, e := 5, w := [], dirty := true }
    (wakeCause (c {}) 0 = false ∧ bit (rd (c {}) (.chPwrCtl 0)) 0 = true ∧ bit (rd (c {}) (.chPwrCtl 0)) 1 = false) ∧
    dirtyEntries (churnAt (c { lines := [d] }) 0) ≠ [] ∧ wakeCause (c { lines := [d] }) 0 = false ∧
    ((churnAt (c { sleepy := true }) 0).sleepy = true ∧ wakeCause (c { sleepy := true, coming := [{}] }) 0 = true) ∧
    (let o : Owner := .mapWb 0 5 0; backOwed { c {} with inflight := [{ flight with owner := o }] } 0 = true) ∧
    bit (stored O (.chPwrCtl 0) 0 up) 0 = false ∧ bit (stored O (.chPwrCtl 0) 1 up) 0 = true ∧
    (up.cbJob.left.getLsbD 0 = false ∧ up.ftJob.left.getLsbD 0 = false ∧ up.txq = [] ∧ churnQuantum 0 (churn0 { pwr := .active } up) = none) := by
  decide +kernel

/-- Request 0 rises on fault 4, with IRQ_MSG_CTL[0] at `c`. -/
def irq0 (c : Word) (s : State) : State := wr (wr { s with flt := 16 } (.irqMap 0) 0x80000) (.irqMsgCtl 0) c

theorem test_meets_FormingRequestsFrame_messages :
    let q (s : State) : State := { s with txq := [{ m := sigMsg .hbp 0 1, owner := none, t := 0 }] }
    let f := { up with irqReq := 1 }
    ((irqRequests (irq0 1 up)).getLsbD 0 = true ∧ (irq0 1 up).irqReq.getLsbD 0 = false ∧ irqMode (irq0 1 up) 0 ≠ 0 ∧
      bit (rd (irq0 1 up) (.irqMsgCtl 0)) 2 = false ∧ linkOk (irq0 1 up) .hbp = true ∧ canDrive (irq0 1 up) (irqMessage (irq0 1 up) 0) none = true) ∧
    bit (rd (irq0 5 up) (.irqMsgCtl 0)) 2 = true ∧ (irqMode (irq0 0 up) 0 = 0 ∧ (irqRequests (irq0 0 up)).getLsbD 0 = true) ∧
    ((irqRequests f).getLsbD 0 = false ∧ f.irqReq.getLsbD 0 = true) ∧ (q up).txq.any (fun x => x.m.port == .hbp) = true := by
  decide +kernel

theorem test_meets_MemoryFormKept_tables : tablesWf (withE 5 E5 (wr run (.prmHold 3) 1)) = true ∧ steps run (.nop G) = true := by decide +kernel

theorem test_meets_StepInstructions_commits :
    let o := opened run; let c : State := { o with step := { o.step with lastRdy := true, pcmt := true, snapFlag := true } }
    let p : State := { o with step := { o.step with lastRdy := true, pabt := true, rolling := true } }
    let f : State := { o with step := { o.step with flipped := true }, snap := { busy := true } }
    (Issues (.epcmt G) G c ∧ c.step.open_ = true ∧ c.step.lastRdy = true ∧ c.step.pabt = false ∧ c.step.rolling = false ∧ holdsFree c = true ∧
      c.snap.busy = false ∧ anyWork c = false ∧ readWork c = false ∧ queuesEmpty c = true) ∧
    fld (rd c (.snapAsize (b1 c.snap.area))) 35 0 < withTags (areaCovered c) (ctlUnits + sectionUnits c) ∧
    (let w := wr c (.snapAsize 0) 0x1000; withTags (areaCovered w) (ctlUnits + sectionUnits w) ≤ fld (rd w (.snapAsize (b1 w.snap.area))) 35 0) ∧
    (Issues (.epcmt G) G p ∧ p.step.rolling = true ∧ p.step.sweep = false ∧ p.step.flipped = false ∧ (7 : Nat) < p.step.cntCopy.length) ∧
    (Issues (.epcmt G) G f ∧ f.step.flipped = true ∧ ctlIssued { f with snap := {} } = true ∧ ctlIssued f = false) := by
  unfold Issues; decide +kernel

/-- The header of a snapshot of `up`: MAGIC and VERSION, and 0 in every other word. -/
def hdr0 : List Word := 0x000400005A4B534E :: List.replicate 15 0

theorem fold_cut {f : BitVec 32 → Byte → BitVec 32} {l : List Byte} {a c : BitVec 32} (b : BitVec 32)
    (h : (l.take 16).foldl f a = b) (k : (l.drop 16).foldl f b = c) : l.foldl f a = c := by
  rw [← List.take_append_drop 16 l, List.foldl_append, h, k]

theorem crc_hdr0 : crc32c (wordsBytes hdr0) = 0xB75E35C5 := by
  have h : (wordsBytes hdr0).foldl (fun c b => iter crcBit 8 (c ^^^ b.setWidth 32)) 0xFFFFFFFF#32 = 0x48A1CA3A :=
    fold_cut 0xC4BBD552 (by decide +kernel) (fold_cut 0x66C0D02B (by decide +kernel) (fold_cut 0x106DD62D (by decide +kernel)
      (fold_cut 0x5C044836 (by decide +kernel) (fold_cut 0xA2A13AFE (by decide +kernel) (fold_cut 0x38F8F3B5 (by decide +kernel)
      (fold_cut 0x0BB09E21 (by decide +kernel) (fold_cut 0x48A1CA3A (by decide +kernel) (by decide +kernel))))))))
  rw [crc32c, h]; decide

/-- A restore has read that header. -/
def headed : State := { up with snap := { rbusy := true, ctl := ctlPut 0 (hdr0 ++ [0xB75E35C5]) [] } }

theorem test_meets_StepRequestsAndSnapshots_header :
    let w := ctlW headed; headerWords up = hdr0 ∧
    (fld (w 0) 31 0 = 0x5A4B534E ∧ fld (w 0) 63 48 = fld (rd headed .version) 31 16) ∧ fld (ctlW up 0) 31 0 ≠ 0x5A4B534E ∧
    (fld (w 16) 31 0 = (crc32c (wordsBytes ((List.range 16).map w))).toNat ∧ w 17 = w 1) ∧
    ctlW { headed with snap := { headed.snap with ctl := mset 0 headed.snap.ctl 17 9 } } 17 ≠ w 1 ∧
    (fld (w 4) 16 0 = (chipId headed).toNat ∧ fld (w 4) 16 0 ≠ (chipId (wr headed .chipId 9)).toNat) ∧
    (fld (w 14) 31 0 = (layoutCrc headed).toNat ∧ fld (w 14) 31 0 ≠ (layoutCrc (region headed)).toNat) ∧
    (fld (rd headed .snapDpos) 31 0 = fld (w 1) 31 0 ∧ fld (rd (wr headed .snapDpos 7) .snapDpos) 31 0 ≠ fld (w 1) 31 0) := by
  have e : (List.range 16).map (ctlW headed) = hdr0 := by decide +kernel
  simp only [e, crc_hdr0]
  decide +kernel

theorem test_meets_RingCommands_ladles :
    let c (op : Nat) (b : Bool) (sp a n : Nat) (x : Ring) : State := cmd3 op (BitVec.ofNat 64 a) (pack [(8, sp), (0, n)]) { x with begun := b }
    let s (op : Nat) : State := c op true 1 0x40 8 { left := 1 }; let i := cellar (wr (cmd3 3 (rd up .celBase) 64 {}) .hbCfg 2)
    (∀ op ∈ [3, 4], let g := c op true 0 64 64 { left := 1 }
      (ringAt g 3).begun = true ∧ ladleSpace (ringAt g 3).cmd ≠ 1 ∧ (ringAt g 3).left ≠ 0 ∧ (ringAt (c op true 0 64 64 { bad := true }) 3).bad = true) ∧
    (ladleSpace (ringAt (c 3 false 0 480 64 {}) 3).cmd = 0 ∧ ladleLen (ringAt (c 3 false 0 480 64 {}) 3).cmd = 64 ∧
      inCellar (c 3 false 0 480 64 {}) 480 64 = false ∧ cuts 512 480 64 = [(480, 32), (512, 32)] ∧ 512 + 32 ≤ dpaEnd ∧
      cuts 512 (dpaEnd - 32) 64 = [(dpaEnd - 32, 32), (dpaEnd, 32)] ∧ dpaEnd < dpaEnd + 32) ∧
    (inCellar i (cmdA (ringAt i 3).cmd).toNat (ladleLen (ringAt i 3).cmd) = true ∧ bit (rd i .hbCfg) 1 = true) ∧
    (∀ op ∈ [3, 4], ladleSpace (ringAt (s op) 3).cmd = 1 ∧ (ringAt (s op) 3).left ≠ 0 ∧ ladleLen (ringAt (s op) 3).cmd / 8 ≠ 0) ∧
    ((regAt 0x68).isNone = true ∧ (regAt (Reg.off .sysCtl)).map Reg.off = some (Reg.off .sysCtl) ∧ hostFirst up (Reg.off .sysCtl) = false ∧ (churnReady .sysCtl up).isNone = true) ∧
    hostFirst { up with bridges := [.registerWrite O (BitVec.ofNat 26 (Reg.off .sysCtl)) 0] } (Reg.off .sysCtl) = true ∧
    ((churnReady (.chLag 3) up).isSome = true ∧ (regAt (Reg.off (.imem 5))).map Reg.off = some (Reg.off (.imem 5)) ∧ run.sep.st = .running) ∧
    (let z := c 3 true 1 0 8 {}; (ringAt z 3).st = .executing ∧ (ringAt z 3).closing = false ∧ (ringAt z 3).left = 0) := by
  decide +kernel

theorem test_meets_credit_waits :
    let l := { up with sys := { up.sys with lock := false } }; let e := setPort up .pp { up.ports[66] with rxHdr := 0 }
    (inReset l = false ∧ linkOk l .pp = true ∧ fclkOn l = false ∧ l.sys.mode.toNat ≠ 3) ∧ ({ l with sys := { l.sys with phase := 7 } } : State).sys.phase ≠ 8 ∧
    (let y : State := { up with sys := { up.sys with phase := 7 } }; inReset y = false ∧ fclkOn y = true ∧ live y = false ∧ linkOk y .pp = true) ∧
    (cmdPort (.ppTargetRequest (req 3 0 64)) = some (.pp, 1) ∧ linkOk e .pp = true ∧ hasRx { e with bridges := [] } .pp 1 = false ∧
      hasRx { up with bridges := [] } .pp 1 = true) := by
  decide +kernel

/-- A block with CAP at 64 (16 W) and churns 0 and 1 at duties 8 and 7. -/
def capped : State := wr (setChurn (churn0 { pwr := .active } up) 1 { pwr := .idle, duty := 7 }) .pwrCap 64

theorem test_meets_ChurnPower_duty :
    let d (i : Nat) : Nat := dutyOf (churnAt capped i); let w (l : List (BitVec 16)) (i : Nat) : Nat := (l.getD i 0).toNat
    let E (l : List (BitVec 16)) : Nat := (List.range 32).foldl (fun a i => a + w l i) 0
    (fld (rd capped .pwrCap) 11 0 = 64 ∧ fld (rd up .pwrCap) 11 0 = 0 ∧ capped.sys.droop = false ∧ fld (rd capped .thermCfg) 7 0 = 105) ∧
    (4 * (64 + 64 / 8) < E [289] ∧ 4 * 64 < E [280] ∧ E [280] ≤ 4 * (64 + 64 / 8) ∧ E [200] < 4 * (64 - 64 / 16) ∧ 4 * (64 - 64 / 16) ≤ E [250] ∧
      E [250] ≤ 4 * 64) ∧
    ((churnAt capped 0).pwr = .active ∧ 1 < d 0 ∧ ((churnAt capped 2).pwr ≠ .active ∧ (churnAt capped 2).pwr ≠ .idle)) ∧
    ((∀ j, j < 32 → 1 < d j → w [280] j < w [280] 0 ∨ w [280] j = w [280] 0 ∧ 0 ≤ j) ∧ ¬ (w [280] 0 < w [280] 1)) ∧
    (d 1 < 8 ∧ (∀ j, j < 32 → d j < 8 → d 1 < d j ∨ d 1 = d j ∧ 1 ≤ j) ∧ capped.sys.below + 1 < 8 ∧
      ({ capped.sys with below := 7 } : Sys).below + 1 = 8) ∧
    (∀ i, i < 32 → (churnAt up i).pwr ≠ .active ∧ (churnAt up i).pwr ≠ .idle) ∧ 105 ≤ (105 : Byte).toNat ∧ (99 : Byte).toNat + 5 < 105 := by
  decide +kernel

/-! ## Words written out field by field from the encoding tables, one or more for each family -/

/-- OP [63:58], FN [57:52], PN [51], PR [50:48], D [47:42], A [41:36], B [35:30], and [29:0]. -/
def word (op fn pn pr d a b x : Nat) : Word := pack [(58, op), (52, fn), (51, pn), (48, pr), (42, d), (36, a), (30, b), (0, x)]

theorem test_words_scalar :
    sepDecode (word 0 3 0 0 7 0 0 9) = some (.rdsr G 7 9) ∧ sepDecode (word 0 2 1 3 0 0 1 5) = some (.trap { pn := true, pr := 3 } 0x40000005) ∧
    sepDecode (word 1 0xF 0 0 63 1 2 0) = some (.remu G 63 1 2) ∧ sepDecode (word 2 4 0 0 1 2 0x20 0) = some (.xori G 1 2 0x800000000) ∧
    sepDecode (word 2 0x11 0 0 1 0 0 3) = some (.lih G 1 3) ∧ sepDecode (word 3 5 0 0 6 1 2 0) = some (.cleu G 6 1 2) ∧
    sepDecode (word 4 3 0 0 6 5 4 0) = some (.pandn G 6 5 4) := by decide +kernel

theorem test_words_memory_and_flow :
    sepDecode (word 5 1 0 0 1 2 0 8) = some (.st G 1 2 8) ∧ sepDecode (word 5 3 0 0 0 2 0 (15 * 2 ^ 26 + 32)) = some (.stt G 15 2 32) ∧
    sepDecode (word 5 5 0 0 0 2 0 (2 ^ 26 + 3)) = some (.tsetw G 1 2 3) ∧ sepDecode (word 6 1 0 0 0 0 0 32767) = some (.call G 32767) ∧
    sepDecode (word 6 2 0 0 0 0 0 0) = some (.ret G) := by decide +kernel

theorem test_words_directory_and_work :
    sepDecode (word 0x10 0 0 0 0 0 0 (2 * 2 ^ 26)) = some (.mkent G 2) ∧ sepDecode (word 0x10 2 0 0 0 1 2 4) = some (.dset G 1 2 4) ∧
    sepDecode (word 0x10 4 0 0 1 2 0 0) = some (.spill G 1 2) ∧ sepDecode (word 0x11 2 0 0 0 9 0 (3 * 2 ^ 26)) = some (.cop G 3 9) ∧
    sepDecode (word 0x12 0 0 0 5 0 0 (3 * 2 ^ 26)) = some (.tkt G 5 3) ∧ sepDecode (word 0x12 2 0 0 0 1 2 1) = some (.sacq G 1 2 1) ∧
    sepDecode (word 0x13 0 0 0 0 0 0 3) = some (.fence G 3) ∧ sepDecode (word 0x13 2 0 0 0 1 2 0) = some (.hmv G 1 2) ∧
    sepDecode (word 0x14 1 0 0 4 0 0 0) = some (.eprdy G 4) := by decide +kernel

/-- Reserved fields, reserved operands and unlisted codes are illegal (R83). -/
theorem test_words_illegal :
    sepDecode (word 2 1 0 0 1 2 0 0) = none ∧ sepDecode (word 2 0x11 0 0 1 0 0 (2 ^ 28)) = none ∧ sepDecode (word 0 3 0 0 7 0 0 10) = none ∧
    sepDecode (word 3 0 0 0 8 1 2 0) = none ∧ sepDecode (word 0x10 2 0 0 0 1 2 5) = none ∧ sepDecode (word 0x15 0 0 0 0 0 0 0) = none := by
  decide +kernel

/-! ## Single steps, with the values the spec gives -/

/-- What `f` reads in the state after command `c`. -/
def after {α : Type} (c : Instr) (s : State) (d : α) (f : State → α) : α := match exec c s with | .next t => f t | _ => d

/-- add is modulo 2⁶⁴; divu and remu by 0 (R89). -/
theorem test_scalar_values :
    let s := withG 1 (BitVec.ofNat 64 (2 ^ 64 - 1)) (withG 2 1 run)
    after (.add G 3 1 2) s 9 (fun t => gR t 3) = 0 ∧ after (.divu G 3 2 4) s 0 (fun t => gR t 3) = 0xFFFFFFFFFFFFFFFF ∧
    after (.remu G 3 1 4) s 0 (fun t => gR t 3) = 0xFFFFFFFFFFFFFFFF ∧ after (.sra G 3 1 2) s 0 (fun t => gR t 3) = 0xFFFFFFFFFFFFFFFF := by
  decide +kernel

/-- halt goes behind itself (R108); an instruction at the last index traps instead (R91). -/
theorem test_halt :
    after (.halt G) run (9, SepSt.trapped) (fun t => (t.sep.pc, t.sep.st)) = (1, .halted) ∧
    after (.halt G) (last run) (0, SepSt.halted) (fun t => (t.sep.pc, t.sep.st)) = (32767, .trapped) := by decide +kernel

/-- A misaligned st stores nothing and records its address (R90, R109). -/
theorem test_misaligned_store :
    after (.st G 1 2 4) (withG 1 7 run) (9, 9) (fun t => (dmRead t 0, t.sep.trap)) = (0, pack [(32, 4), (16, 0x14)]) := by decide +kernel

/-- sacq waits with cause 5, and takes the count once it is there (R103). -/
theorem test_sacq :
    let s := withG 2 3 run
    after (.sacq G 1 2 0) s (0, 9) (fun t => (t.sep.wait, (pairAt t 0).full)) = (5, 0) ∧
    after (.sacq G 1 2 0) (setPair s 0 { full := 4 }) (9, 9) (fun t => (t.sep.wait, (pairAt t 0).full)) = (0, 1) := by decide +kernel

/-- A START outside READY is dropped; in READY it leaves HALTED (R111, R365). -/
theorem test_start :
    after (.sepCtlStart O 1) State.reset SepSt.trapped (fun t => t.sep.st) = .halted ∧
    after (.sepCtlStart O 1) up SepSt.trapped (fun t => t.sep.st) = .running := by decide +kernel

/-- The fault count that a read clears (R378). -/
theorem test_read_clears :
    let s := { up with flts := vset up.flts 4 { cnt := 7 } }
    (regRead .full (.fltCnt 4) s).1 = 7 ∧ (vget {} (regRead .full (.fltCnt 4) s).2.flts 4 : FltRec).cnt = 0 := by decide +kernel

/-- A warm reset keeps the registers of the separator and its memories, and halts it at 0 (R364). -/
theorem test_warm_reset :
    after .wrstNAssert (withG 5 7 { last run with dmem := [(3, 1)] }) (0, 9, []) (fun t => (gR t 5, t.sep.pc, t.dmem)) = (7, 0, [(3, 1)]) := by
  decide +kernel

end Sys2Proof.Tests
end

section
/-! SUPPORT. How a request enters at CP_TREQ and HBP_TREQ: the gate of a target port and what a fault at it leaves (R33, R40, R48, R360). -/

namespace Sys2Proof.Machine

variable {s : State} {p : PortId} {d : Nat} {c : Instr} {r : Req} {f : State → State}

/-- A block whose bridges take requests is past start-up. -/
theorem accepts_phase (h : accepts s = true) : s.sys.phase = 8 := by
  simp only [accepts, Bool.and_eq_true, beq_iff_eq] at h
  exact h.2

/-- A block that works takes requests (R366). -/
theorem live_accepts (h : live s = true) : accepts s = true := by
  simp only [live, Bool.and_eq_true] at h
  simp only [accepts, Bool.and_eq_true]
  exact h.1

/-- TAG_FAULT shows in FLT_STAT. -/
theorem tagFault_bit (p : PortId) (hdr : Nat) (s : State) : (tagFault p hdr s).flt.getLsbD 0x13 = true :=
  raise_bit _ _ s (by decide)

/-- TAG_FAULT clears no other bit of FLT_STAT. -/
theorem tagFault_keeps (hdr : Nat) {k : Nat} (h : s.flt.getLsbD k = true) : (tagFault p hdr s).flt.getLsbD k = true :=
  raise_keeps _ _ s h

/-- A raise that marks neither the separator nor the step changes the fault registers alone. -/
theorem raise_faults {k : Nat} (w i : Word) (s : State) (h : k ≠ 8) (h2 : k ≠ 12) :
    raise k w i s = { s with flt := (raise k w i s).flt, flts := (raise k w i s).flts } := by
  rw [raise_plain w i s h h2]

/-- TAG_FAULT changes the fault registers alone. -/
theorem tagFault_faults (p : PortId) (hdr : Nat) (s : State) :
    tagFault p hdr s = { s with flt := (tagFault p hdr s).flt, flts := (tagFault p hdr s).flts } :=
  raise_faults _ _ s (by decide) (by decide)

/-- While fclk is stopped a request waits in its bridge (R360). -/
theorem targetGate_stopped (h : accepts s = true) (hf : fclkOn s = false) : targetGate p c r f s = done (holdStopped c s) := by
  simp [targetGate, hostGate, h, hf]

/-- A request on a link that is down is lost (R48). -/
theorem targetGate_linkDown (h : live s = true) (hl : linkOk s p = false) : targetGate p c r f s = .next s := by
  rw [targetGate, hostGate_live h]; simp [hl]

/-- A request without credit is dropped with TAG_FAULT (R40). -/
theorem targetGate_noCredit (hc : cmdPort c = some (p, d)) (h : live s = true) (hl : linkOk s p = true) (hx : hasRx s p d = false) :
    targetGate p c r f s = done (tagFault p (hdrHi r) s) := by
  rw [targetGate, hostGate_live h]; simp [hl, hc, hx]

/-- A request that arrives has its effect. -/
theorem targetGate_arrives (hc : cmdPort c = some (p, d)) (h : arrives s p d) : targetGate p c r f s = done (f s) := by
  obtain ⟨h, hl, hx⟩ := h
  rw [targetGate, hostGate_live h]; simp [hl, hc, hx]

/-- A command that comes in through the gate of a port, once the block is READY, is turned away as the gate does it. -/
theorem turnedAway_of_targetGate (hc : cmdPort c = some (p, d))
    (he : s.sys.phase = 8 → exec c s = targetGate p c r f s) : turnedAway s p d c := by
  refine ⟨fun ha hf => ?_, fun h hl => ?_, fun h hl hx => ⟨tagFault p (hdrHi r) s, ?_, tagFault_bit .., tagFault_faults ..⟩⟩
  · rw [Does, he (accepts_phase ha), targetGate_stopped ha hf]; rfl
  · rw [he (accepts_phase (live_accepts h)), targetGate_linkDown h hl]
  · rw [Does, he (accepts_phase (live_accepts h)), targetGate_noCredit hc h hl hx]; rfl

/-- Once the block is READY no request comes early (R366, R368). -/
theorem earlyReq_ready {o : Origin} {ops : List Nat} {g : State → Out} (h : s.sys.phase = 8) : earlyReq p o ops c r g s = g s := by
  simp [earlyReq, leaveReq, h]

/-- CP_REQUEST in a block that is READY. -/
theorem exec_cpRequest_ready (h : s.sys.phase = 8) :
    exec (.cpRequest r) s = targetGate .cp (.cpRequest r) r (cpIn (.cpRequest r) r) s := earlyReq_ready h

/-- HBP_TARGET_REQUEST in a block that is READY. -/
theorem exec_hbpTargetRequest_ready (h : s.sys.phase = 8) :
    exec (.hbpTargetRequest r) s = targetGate .hbp (.hbpTargetRequest r) r (hbpIn (.hbpTargetRequest r) r) s := earlyReq_ready h

/-- What a request that arrives on CP_TREQ leaves. -/
theorem does_cpRequest {x : State} (h : arrives s .cp (reqCredits r)) (hx : cpIn (.cpRequest r) r s = x) : Does (.cpRequest r) s x := by
  rw [Does, exec_cpRequest_ready (accepts_phase (live_accepts h.1)), targetGate_arrives rfl h, hx]; rfl

/-- What a request that arrives on HBP_TREQ leaves. -/
theorem does_hbpTargetRequest {x : State} (h : arrives s .hbp (reqCredits r)) (hx : hbpIn (.hbpTargetRequest r) r s = x) :
    Does (.hbpTargetRequest r) s x := by
  rw [Does, exec_hbpTargetRequest_ready (accepts_phase (live_accepts h.1)), targetGate_arrives rfl h, hx]; rfl

/-- A request that is refused and expects a response is answered (R33). -/
theorem refuseReq_answered {k : Nat} (h : nonPosted r.opc = true) : refuseReq p r k s = answer p (r.opc == 1) r.tag k [] s := if_pos h

/-- A posted request that is refused raises TAG_FAULT (R33). -/
theorem refuseReq_posted {k : Nat} (h : nonPosted r.opc = false) : refuseReq p r k s = tagFault p (hdrHi r) s := by simp [refuseReq, h]

end Sys2Proof.Machine
end

section
/-! SUPPORT. An access to control space by a request (R7, R383), case by case. -/

namespace Sys2Proof.Machine

variable {s : State} {p : PortId} {o : Origin} {c : Instr} {r : Req} {q : Reg} {z : WSize} {a : Nat}

/-- Outside the map a request is refused. -/
theorem spaceAccess_unoccupied (ha : r.addr.toNat % 2 ^ 62 = a) (hq : 2 ^ 26 ≤ a ∨ regAt (a / 8 * 8) = none) :
    spaceAccess p o c r s = refuseReq p r 1 s := by
  have : (if a < 2 ^ 26 then regAt (a / 8 * 8) else none) = none := by
    rcases hq with h | h
    · exact if_neg (by omega)
    · simp [h]
  simp only [spaceAccess, ha, this]

/-- An access of a size or alignment R7 does not have is answered FORMAT. -/
theorem spaceAccess_badSize (ha : r.addr.toNat % 2 ^ 62 = a) (h : a < 2 ^ 26) (hq : regAt (a / 8 * 8) = some q)
    (hz : accessSize a (reqLen r) = none) (hn : nonPosted r.opc = true) :
    spaceAccess p o c r s = answer p (r.opc == 1) r.tag 5 [] s := by
  simp only [spaceAccess, ha, if_pos h, hq, hz, if_pos hn]

/-- An access to a churn that is not ACTIVE waits for it. -/
theorem spaceAccess_asleep {t : State} (ha : r.addr.toNat % 2 ^ 62 = a) (h : a < 2 ^ 26) (hq : regAt (a / 8 * 8) = some q)
    (hz : accessSize a (reqLen r) = some z) (hc : churnReady q s = some t) : spaceAccess p o c r s = hold c t := by
  simp only [spaceAccess, ha, if_pos h, hq, hz, hc]

/-- A read is answered with the register's bytes. -/
theorem spaceAccess_read (ha : r.addr.toNat % 2 ^ 62 = a) (h : a < 2 ^ 26) (hq : regAt (a / 8 * 8) = some q)
    (hz : accessSize a (reqLen r) = some z) (hc : churnReady q s = none) (ho : r.opc = 1) :
    spaceAccess p o c r s = answer p true r.tag 0 (readBytes z (regVal s q &&& sizeMask z)) (regRead z q s).2 := by
  simp only [spaceAccess, ha, if_pos h, hq, hz, hc, ho]; rfl

/-- A write is the register's, and is answered if it expects a response. -/
theorem spaceAccess_write (ha : r.addr.toNat % 2 ^ 62 = a) (h : a < 2 ^ 26) (hq : regAt (a / 8 * 8) = some q)
    (hz : accessSize a (reqLen r) = some z) (hc : churnReady q s = none) (ho : r.opc ≠ 1) :
    spaceAccess p o c r s =
      if nonPosted r.opc then answer p false r.tag 0 [] (regWrite { origin := o, rid := r.rid, size := z } q (writeWord z r.data) s)
      else regWrite { origin := o, rid := r.rid, size := z } q (writeWord z r.data) s := by
  have : (r.opc == 1) = false := by simpa using ho
  simp only [spaceAccess, ha, if_pos h, hq, hz, hc, this, Bool.false_eq_true, if_false]

end Sys2Proof.Machine
end

section
/-! SUPPORT. A request on CP_TREQ that arrives and waits for none before it, case by case (R43, R383). -/

namespace Sys2Proof.Machine

variable {s : State} {c : Instr} {r : Req} {q : Reg} {z : WSize}

/-- Behind an earlier request it waits. -/
theorem cpIn_ordered (h : ordered s .cp 0 2 = true) : cpIn c r s = hold c s := if_pos h

/-- Outside the map it is refused. -/
theorem cpIn_unoccupied (h : ordered s .cp 0 2 = false) (hq : 2 ^ 26 ≤ r.addr.toNat ∨ regAt (r.addr.toNat / 8 * 8) = none) :
    cpIn c r s = refuseReq .cp r 1 s := by
  by_cases ha : 2 ^ 26 ≤ r.addr.toNat
  · simp only [cpIn, h, ge_iff_le, ha, Bool.false_eq_true, if_false, if_true]
  · have hn : regAt (r.addr.toNat / 8 * 8) = none := hq.resolve_left ha
    simp only [cpIn, h, ge_iff_le, ha, hn, Option.isSome_none, Bool.false_eq_true, and_false, if_false]
    exact spaceAccess_unoccupied (Nat.mod_eq_of_lt (by omega)) hq

/-- In the map and well formed it is an access to control space. -/
theorem cpIn_access (h : ordered s .cp 0 2 = false) (ha : r.addr.toNat < 2 ^ 26) (hm : malformed [1, 2] { r with oc := 2 } = false) :
    cpIn c r s = spaceAccess .cp .cp c r s := by
  simp only [cpIn, h, hm, ge_iff_le, Nat.not_le.mpr ha, Bool.false_eq_true, false_and, if_false]

/-- In the map and malformed, or of a size R7 does not have, it is answered FORMAT. -/
theorem cpIn_format (h : ordered s .cp 0 2 = false) (ha : r.addr.toNat < 2 ^ 26) (hq : regAt (r.addr.toNat / 8 * 8) = some q)
    (hm : malformed [1, 2] { r with oc := 2 } = true ∨ accessSize r.addr.toNat (reqLen r) = none) (hn : nonPosted r.opc = true) :
    cpIn c r s = answer .cp (r.opc == 1) r.tag 5 [] s := by
  by_cases hm' : malformed [1, 2] { r with oc := 2 } = true
  · simp only [cpIn, h, hm', hq, ge_iff_le, Nat.not_le.mpr ha, Option.isSome_some, Bool.false_eq_true, and_self, if_false, if_true]
    exact refuseReq_answered hn
  · rw [cpIn_access h ha (eq_false_of_ne_true hm')]
    exact spaceAccess_badSize (Nat.mod_eq_of_lt (by omega)) ha hq (hm.resolve_left hm') hn

end Sys2Proof.Machine
end

section
/-! SUPPORT. A request on HBP_TREQ that arrives, case by case (R279 to R282, R383). -/

namespace Sys2Proof.Machine

variable {s : State} {c : Instr} {r : Req} {q : Reg} {z : WSize}

/-- HB_CFG lets the requester in: its number is not checked, or is the one of HB_RID (R281). -/
def admits (s : State) (r : Req) : Prop := bit (rd s .hbCfg) 2 = false ∨ r.rid = (rd s .hbRid).setWidth 16

/-- The check of the requester's number passes for one that is let in. -/
theorem admits.check (h : admits s r) : (bit (rd s .hbCfg) 2 && r.rid != (rd s .hbRid).setWidth 16) = false := by
  rcases h with h | h <;> simp [h]

/-- Behind an earlier request it waits. -/
theorem hbpIn_ordered (h : ordered s .hbp 0 r.oc = true) : hbpIn c r s = hold c s := if_pos h

/-- From another requester than HB_RID's it is refused, with ILLEGAL_OP (R281). -/
theorem hbpIn_stranger (h : ordered s .hbp 0 r.oc = false) (hb : bit (rd s .hbCfg) 2 = true)
    (hr : r.rid ≠ (rd s .hbRid).setWidth 16) : hbpIn c r s = refuseReq .hbp r 1 (raise 0x14 (portRec .hbp) 0 s) := by
  have hc : (bit (rd s .hbCfg) 2 && r.rid != (rd s .hbRid).setWidth 16) = true := by simpa [hb] using hr
  simp only [hbpIn, h, hc, Bool.false_eq_true, if_false, if_true]

/-- Malformed it is refused with FORMAT, in window 0 at an occupied offset (R33). -/
theorem hbpIn_malformed (h : ordered s .hbp 0 r.oc = false) (ha : admits s r) (hm : malformed [1, 3] r = true)
    (hw : r.addr.toNat / 2 ^ 62 ≠ 0 ∨
      (r.addr.toNat % 2 ^ 62 < 2 ^ 26 ∧ (regAt (r.addr.toNat % 2 ^ 62 / 8 * 8)).isSome = true)) :
    hbpIn c r s = refuseReq .hbp r 5 s := by
  by_cases h0 : r.addr.toNat / 2 ^ 62 = 0
  · have hq := hw.resolve_left (not_not_intro h0)
    simp only [hbpIn, h, ha.check, h0, hm, hq, Bool.false_eq_true, if_false, if_true, and_self]
  · simp only [hbpIn, h, ha.check, h0, hm, Bool.false_eq_true, if_false, if_true]

/-- Well formed in window 0 it is an access to control space (R279). -/
theorem hbpIn_control (h : ordered s .hbp 0 r.oc = false) (ha : admits s r) (hm : malformed [1, 3] r = false)
    (hw : r.addr.toNat / 2 ^ 62 = 0) : hbpIn c r s = spaceAccess .hbp .hbp c r s := by
  simp only [hbpIn, h, ha.check, hw, hm, Bool.false_eq_true, false_and, if_false, if_true]

/-- In windows 2 and 3 it is refused (R279). -/
theorem hbpIn_noWindow (h : ordered s .hbp 0 r.oc = false) (ha : admits s r) (hm : malformed [1, 3] r = false)
    (hw : 2 ≤ r.addr.toNat / 2 ^ 62) : hbpIn c r s = refuseReq .hbp r 1 s := by
  have h0 : r.addr.toNat / 2 ^ 62 ≠ 0 := by omega
  have h1 : r.addr.toNat / 2 ^ 62 ≠ 1 := by omega
  simp only [hbpIn, h, ha.check, h0, h1, hm, Bool.false_eq_true, if_false]

/-- The bytes of the memory window: all of device memory, or 64 MiB of it (R279, R280). -/
def windowSize (s : State) : Nat := if bit (rd s .hbCfg) 0 then 2 ^ 42 else 2 ^ 26

/-- The address in device memory of an offset in the memory window (R280). -/
def windowAddr (s : State) (off : Nat) : Nat := if bit (rd s .hbCfg) 0 then off else (rd s .winBase).toNat + off

/-- Past the end of the memory window it is refused (R280). -/
theorem hbpIn_pastWindow (h : ordered s .hbp 0 r.oc = false) (ha : admits s r) (hm : malformed [1, 3] r = false)
    (hw : r.addr.toNat / 2 ^ 62 = 1) (hs : windowSize s < r.addr.toNat % 2 ^ 62 + reqLen r) : hbpIn c r s = refuseReq .hbp r 1 s := by
  simp only [hbpIn, h, ha.check, hw, hm, Bool.false_eq_true, if_false, if_true, Nat.one_ne_zero]
  exact if_pos hs

/-- Within the memory window it goes to device memory, unless it writes the cellar and HB_CFG.CELW is 0 (R280, R282). -/
theorem hbpIn_window (h : ordered s .hbp 0 r.oc = false) (ha : admits s r) (hm : malformed [1, 3] r = false)
    (hw : r.addr.toNat / 2 ^ 62 = 1) (hs : r.addr.toNat % 2 ^ 62 + reqLen r ≤ windowSize s) :
    hbpIn c r s =
      if r.opc == 3 && inCellar s (windowAddr s (r.addr.toNat % 2 ^ 62)) (reqLen r) && !bit (rd s .hbCfg) 1 then
        refuseReq .hbp r 1 (raise 0x14 (portRec .hbp) 0 s)
      else memRequest .hbp 0 (windowAddr s (r.addr.toNat % 2 ^ 62)) r s := by
  simp only [hbpIn, h, ha.check, hw, hm, Bool.false_eq_true, if_false, if_true, Nat.one_ne_zero]
  exact if_neg (Nat.not_lt.mpr hs)

/-- The opcodes of HBP_TREQ (R28). -/
theorem opc_of_wellFormed (h : malformed [1, 3] r = false) : r.opc = 1 ∨ r.opc = 3 := by
  simp only [malformed, Bool.or_eq_false_iff, Bool.not_eq_false', List.contains_cons, List.contains_nil, Bool.or_false, Bool.or_eq_true,
    beq_iff_eq] at h
  rcases h.1.1.1.1 with h | h
  · exact .inl (BitVec.eq_of_toNat_eq h)
  · exact .inr (BitVec.eq_of_toNat_eq h)

/-- A request of HBP_TREQ that lies in device memory is performed there. -/
theorem memRequest_hbp {a : Nat} (hm : malformed [1, 3] r = false) (ha : a + reqLen r ≤ dpaEnd) :
    memRequest .hbp 0 a r s = winStart
      { id := 0, port := .hbp, chip := 0, oc := r.oc, tag := r.tag, rd := r.opc == 1, posted := r.opc == 3 } a (reqLen r) r.data s := by
  have hp : (!nonPosted r.opc) = (r.opc == 3) := by rcases opc_of_wellFormed hm with h | h <;> rw [h] <;> rfl
  simp [memRequest, inMemory, ha, hp]

/-- Past device memory it is refused (R6). -/
theorem memRequest_outside {p : PortId} {chip : BitVec 17} {a : Nat} (ha : dpaEnd < a + reqLen r) :
    memRequest p chip a r s = refuseReq p r 1 s := by
  simp [memRequest, inMemory, ha]

end Sys2Proof.Machine
end

section
/-! The requests on CP_TREQ and HBP_TREQ. -/

namespace Sys2Proof.Machine

/-- Settles O50: the gate of the port turns a request away or lets it in, and each case of the statement is one of the cases of `cpIn` and
`hbpIn` above. -/
theorem hostRequests : Obligations.HostRequests := by
  intro s r
  refine ⟨turnedAway_of_targetGate rfl exec_cpRequest_ready, turnedAway_of_targetGate rfl exec_hbpTargetRequest_ready,
    fun h => ⟨fun ho => does_cpRequest h (cpIn_ordered ho), fun ho =>
      ⟨fun hq => does_cpRequest h (cpIn_unoccupied ho hq), fun q z ha hq hm hz => ?cpAccess,
        fun q ha hq hm hn => does_cpRequest h (cpIn_format ho ha hq hm hn)⟩⟩,
    fun h => ⟨fun ho => does_hbpTargetRequest h (hbpIn_ordered ho), fun ho hb hr => ?stranger,
      fun ho ha hm hw => does_hbpTargetRequest h (hbpIn_malformed ho ha hm hw), fun ho ha hm => ⟨fun hw => ?window,
        fun hw => does_hbpTargetRequest h (hbpIn_noWindow ho ha hm hw), fun q z hw hoff hq hz hc => ?hbpAccess⟩⟩⟩
  case cpAccess =>
    have hmod : r.addr.toNat % 2 ^ 62 = r.addr.toNat := Nat.mod_eq_of_lt (by omega)
    have hin := cpIn_access (c := .cpRequest r) ho ha hm
    refine ⟨fun hc hr => ?_, fun hc hw => ?_, fun t hc => ?_⟩
    · exact does_cpRequest h (hin.trans (spaceAccess_read hmod ha hq hz hc hr))
    · have hn : nonPosted r.opc = true := by rw [hw]; rfl
      exact does_cpRequest h (hin.trans ((spaceAccess_write hmod ha hq hz hc (by rw [hw]; decide)).trans (if_pos hn)))
    · exact does_cpRequest h (hin.trans (spaceAccess_asleep hmod ha hq hz hc))
  case stranger =>
    exact ⟨raise 0x14 (portRec .hbp) 0 s, does_hbpTargetRequest h (hbpIn_stranger ho hb hr), raise_bit _ _ s (by decide),
      raise_faults _ _ s (by decide) (by decide)⟩
  case window =>
    have hin := hbpIn_window (c := .hbpTargetRequest r) ho ha hm hw
    refine ⟨fun hs => does_hbpTargetRequest h (hbpIn_pastWindow ho ha hm hw hs), fun hs => ⟨fun hr hcel hb => ?_, fun hmay => ?_⟩⟩
    · have hn : nonPosted r.opc = false := by rw [hr]; rfl
      have hbar : (r.opc == 3 && inCellar s (windowAddr s (r.addr.toNat % 2 ^ 62)) (reqLen r) && !bit (rd s .hbCfg) 1) = true := by
        rw [Bool.and_eq_true, Bool.and_eq_true, hb]; exact ⟨⟨beq_iff_eq.mpr hr, hcel⟩, rfl⟩
      refine ⟨tagFault .hbp (hdrHi r) (raise 0x14 (portRec .hbp) 0 s), ?_, tagFault_keeps _ (raise_bit _ _ s (by decide)),
        tagFault_bit .., ?_⟩
      · exact does_hbpTargetRequest h ((hin hs).trans ((if_pos hbar).trans (refuseReq_posted hn)))
      · rw [tagFault_faults, raise_faults _ _ s (by decide) (by decide)]
    · have hfree : ¬(r.opc == 3 && inCellar s (windowAddr s (r.addr.toNat % 2 ^ 62)) (reqLen r) && !bit (rd s .hbCfg) 1) = true := by
        rw [Bool.and_eq_true, Bool.and_eq_true]
        rintro ⟨⟨hr, hcel⟩, hb⟩
        rcases hmay with h1 | h1 | h1
        · rw [h1] at hr; exact absurd hr (by decide)
        · exact Bool.false_ne_true (h1.symm.trans hcel)
        · rw [h1] at hb; exact absurd hb (by decide)
      have hmem := (hin hs).trans (if_neg hfree)
      exact ⟨fun hin => does_hbpTargetRequest h (hmem.trans (memRequest_hbp hm hin)),
        fun hout => does_hbpTargetRequest h (hmem.trans (memRequest_outside hout))⟩
  case hbpAccess =>
    have hin := hbpIn_control (c := .hbpTargetRequest r) ho ha hm hw
    refine ⟨fun hr => ?_, fun hr => ?_⟩
    · exact does_hbpTargetRequest h (hin.trans (spaceAccess_read rfl hoff hq hz hc hr))
    · have hn : ¬nonPosted r.opc = true := by rw [hr]; decide
      exact does_hbpTargetRequest h (hin.trans ((spaceAccess_write rfl hoff hq hz hc (by rw [hr]; decide)).trans (if_neg hn)))

end Sys2Proof.Machine
end

section
/-! SUPPORT. Access to churns, to what a table of registers holds and to lists of requests: reads after the updates of this part. -/

namespace Sys2Proof.Machine

variable {s : State} {n k : Nat}

/-- A churn just replaced. -/
theorem churnAt_setChurn_same {x : Churn} (h : n < 32) : churnAt (setChurn s n x) n = x := vget_vset_same _ _ _ _ h

/-- Another churn than the one replaced. -/
theorem churnAt_setChurn_ne {x : Churn} (h : k ≠ n) : churnAt (setChurn s n x) k = churnAt s k := vget_vset_ne _ _ _ _ _ (Ne.symm h)

/-- A churn just changed. -/
theorem churnAt_modChurn_same {f : Churn → Churn} (h : n < 32) : churnAt (modChurn n f s) n = f (churnAt s n) := churnAt_setChurn_same h

/-- Another churn than the one changed. -/
theorem churnAt_modChurn_ne {f : Churn → Churn} (h : k ≠ n) : churnAt (modChurn n f s) k = churnAt s k := churnAt_setChurn_ne h

/-- A churn after all of them changed alike. -/
theorem churnAt_map {f : Churn → Churn} (h : k < 32) : churnAt { s with churns := s.churns.map f } k = f (churnAt s k) := by
  simp [churnAt, vget, Vector.getD, h]

/-- The wake of a churn that is not ACTIVE begins (R356). -/
theorem churnAt_wake (h : n < 32) (hp : (churnAt s n).pwr ≠ .active) :
    churnAt (wake n s) n = { churnAt s n with waking := true, sleepy := false } := by
  rw [wake, churnAt_modChurn_same h, if_neg (by simpa using hp)]

/-- A value other than the default that was just written is the one a read finds, whatever the form of the map. -/
theorem mget_mset_value {α : Type} [DecidableEq α] {d v : α} (m : SMap α) (hv : v ≠ d) : mget d (mset d m n v) n = v := by
  induction m with
  | nil => simp [mset, mget, hv]
  | cons x r ih =>
    obtain ⟨k, u⟩ := x
    simp only [mset, if_neg hv]
    split
    · simp [mget]
    · split
      · simp [mget]
      · next hk => simp [mget, Ne.symm hk, ih]

/-- A value other than the default, written twice. -/
theorem mset_mset_value {α : Type} [DecidableEq α] {d v : α} (m : SMap α) (hv : v ≠ d) :
    mset d (mset d m n v) n v = mset d m n v := by
  induction m with
  | nil => simp [mset, hv]
  | cons x r ih =>
    obtain ⟨k, u⟩ := x
    simp only [mset, if_neg hv]
    split
    · simp [mset, hv]
    · split
      · simp [mset, hv]
      · next h1 h2 => simp [mset, h1, h2, ih]

/-- No element to take out. -/
theorem takeOut_none {α : Type} {p : α → Bool} {l : List α} (h : l.any p = false) : takeOut p l = none := by
  induction l with
  | nil => rfl
  | cons x r ih =>
    simp only [List.any_cons, Bool.or_eq_false_iff] at h
    simp [takeOut, h.1, ih h.2]

/-- Taking an element out leaves one less. -/
theorem takeOut_some {α : Type} {p : α → Bool} {l : List α} (h : l.any p = true) :
    ∃ x r, takeOut p l = some (x, r) ∧ r.length + 1 = l.length := by
  induction l with
  | nil => simp at h
  | cons x r ih =>
    by_cases hp : p x = true
    · exact ⟨x, r, by simp [takeOut, hp], rfl⟩
    · obtain ⟨y, t, ht, hl⟩ := ih (by simpa [hp] using h)
      exact ⟨y, x :: t, by simp [takeOut, hp, ht], by simp [hl]⟩

end Sys2Proof.Machine
end

section
/-! SUPPORT. Accesses to the registers of a churn: they wait for it, and wake it (R356, R388). -/

namespace Sys2Proof.Machine

variable {s : State} {n : Nat} {c : Instr} {f : State → Out}

/-- An access to an ACTIVE churn goes on. -/
theorem churnGate_active (h : live s = true) (hp : (churnAt s n).pwr = .active) : churnGate n c f s = f s := by
  rw [churnGate, hostGate_live h, if_pos (by simpa using hp)]

/-- An access to another churn waits, and the churn wakes. -/
theorem churnGate_waits (h : live s = true) (hp : (churnAt s n).pwr ≠ .active) :
    churnGate n c f s = done (hold c (wake n s)) := by
  rw [churnGate, hostGate_live h, if_neg (by simpa using hp)]

/-- What an access leaves that waits for a churn: the access in the bridge, the churn's wake begun, and every other churn unchanged. -/
theorem waits_for_churn (hn : n < 32) (hp : (churnAt s n).pwr ≠ .active) (he : exec c s = done (hold c (wake n s))) :
    ∃ x, Does c s { x with bridges := s.bridges ++ [c] } ∧ x = { s with churns := x.churns } ∧
      churnAt x n = { churnAt s n with waking := true, sleepy := false } ∧ ∀ k, k ≠ n → churnAt x k = churnAt s k :=
  ⟨wake n s, he, rfl, churnAt_wake hn hp, fun _ hk => churnAt_modChurn_ne hk⟩

end Sys2Proof.Machine
end

section
/-! SUPPORT. REGISTER_WRITE and RC_COUNTER_READ by what lies at the offset (R378, R383, R388). -/

namespace Sys2Proof.Machine

variable {s : State} {o : Org} {off : BitVec 26} {v : Word} {q : Reg} {n : Nat}

/-- Once the block is READY a write of SYS_CTL is one as any other (R368). -/
theorem exec_registerWrite_live (h : live s = true) :
    exec (.registerWrite o off v) s = spaceWrite (.registerWrite o off v) o off.toNat v s := by
  have he : leaveEarly o v s = false := by simp [leaveEarly, accepts_phase (live_accepts h)]
  show execRegisterWrite o off v s = _
  simp only [execRegisterWrite, leaveGate, he, Bool.false_eq_true, if_false, ite_self]

/-- A write of an unoccupied offset. -/
theorem registerWrite_unoccupied (h : live s = true) (hq : regAt (off.toNat / 8 * 8) = none) : Does (.registerWrite o off v) s s := by
  rw [Does, exec_registerWrite_live h]
  simp only [spaceWrite, hq]
  exact hostGate_live h _ _

/-- A write of a register outside the churns. -/
theorem registerWrite_hub (h : live s = true) (hq : regAt (off.toNat / 8 * 8) = some q) (hn : inChurn q = none) :
    Does (.registerWrite o off v) s (regWrite o q v s) := by
  rw [Does, exec_registerWrite_live h]
  simp only [spaceWrite, hq, hn]
  exact hostGate_live h _ _

/-- A write of a register in an ACTIVE churn. -/
theorem registerWrite_active (h : live s = true) (hq : regAt (off.toNat / 8 * 8) = some q) (hn : inChurn q = some n)
    (hp : (churnAt s n).pwr = .active) : Does (.registerWrite o off v) s (regWrite o q v s) := by
  rw [Does, exec_registerWrite_live h]
  simp only [spaceWrite, hq, hn]
  exact churnGate_active h hp

/-- A write of a register in another churn. -/
theorem registerWrite_waits (h : live s = true) (hq : regAt (off.toNat / 8 * 8) = some q) (hn : inChurn q = some n)
    (hp : (churnAt s n).pwr ≠ .active) :
    exec (.registerWrite o off v) s = done (hold (.registerWrite o off v) (wake n s)) := by
  rw [exec_registerWrite_live h]
  simp only [spaceWrite, hq, hn]
  exact churnGate_waits h hp

/-- A read of an unoccupied offset. -/
theorem rcCounterRead_unoccupied (hq : regAt (off.toNat / 8 * 8) = none) : exec (.rcCounterRead o off) s = .next s := by
  show execRcCounterRead o off s = _
  simp only [execRcCounterRead, hq]

/-- A read of a register outside the churns. -/
theorem rcCounterRead_hub (h : live s = true) (hq : regAt (off.toNat / 8 * 8) = some q) (hn : inChurn q = none) :
    Does (.rcCounterRead o off) s (regRead o.size q s).2 := by
  show execRcCounterRead o off s = _
  simp only [execRcCounterRead, hq, hn]
  exact hostGate_live h _ _

/-- A read of a register in an ACTIVE churn. -/
theorem rcCounterRead_active (h : live s = true) (hq : regAt (off.toNat / 8 * 8) = some q) (hn : inChurn q = some n)
    (hp : (churnAt s n).pwr = .active) : Does (.rcCounterRead o off) s (regRead o.size q s).2 := by
  show execRcCounterRead o off s = _
  simp only [execRcCounterRead, hq, hn]
  exact churnGate_active h hp

/-- A read of a register in another churn. -/
theorem rcCounterRead_waits (h : live s = true) (hq : regAt (off.toNat / 8 * 8) = some q) (hn : inChurn q = some n)
    (hp : (churnAt s n).pwr ≠ .active) : exec (.rcCounterRead o off) s = done (hold (.rcCounterRead o off) (wake n s)) := by
  show execRcCounterRead o off s = _
  simp only [execRcCounterRead, hq, hn]
  exact churnGate_waits h hp

/-- A read of a register without RC fields changes nothing (R8). -/
theorem regRead_plain {z : WSize} (h : rcMask q = 0) : (regRead z q s).2 = s := if_pos h

/-- A read of all of FLT_CNT changes that counter alone. -/
theorem regRead_fltCnt (c : Nat) (s : State) : (regRead .full (.fltCnt c) s).2 =
    { s with flts := vset s.flts c { (vget {} s.flts c : FltRec) with
      cnt := (vget {} s.flts c : FltRec).cnt &&& (~~~ (rcMask (.fltCnt c) &&& sizeMask .full)).setWidth 32 } } :=
  by rw [regRead, if_neg (show rcMask (.fltCnt c) ≠ 0 by simp [rcMask])]; rfl

/-- A read of all of FLT_CNT clears the counter (R378). -/
theorem regRead_fltCnt_cleared {c : Nat} (h : c < 24) (s : State) :
    (vget {} (regRead .full (.fltCnt c) s).2.flts c : FltRec).cnt = 0 := by
  have hm : (~~~ (rcMask (.fltCnt c) &&& sizeMask .full)).setWidth 32 = (0 : BitVec 32) := by simp only [rcMask, sizeMask]; decide
  rw [regRead_fltCnt, vget_vset_same _ _ _ _ h]
  show (vget {} s.flts c : FltRec).cnt &&& _ = 0
  rw [hm]; exact BitVec.and_zero

end Sys2Proof.Machine
end

section
/-! SUPPORT. A write of a register that only stores (R8), and its entry in the change log (R346, R349). -/

namespace Sys2Proof.Machine

variable {s y : State} {o : Org} {r : Reg} {v : Word}

/-- A register without locked fields stores what is written. -/
theorem plainWrite_free (h : (Reg.desc r).rwl = 0) : plainWrite o r v s = wr s r (stored o r v s) := if_neg fun k => k.2 h

/-- The value a write leaves in a register without locked fields. -/
theorem stored_free (h : (Reg.desc r).rwl = 0) : stored o r v s =
    (v &&& ((Reg.desc r).rw &&& sizeMask o.size)) ||| (rd s r &&& ~~~ ((Reg.desc r).rw &&& sizeMask o.size)) := by
  simp [stored, storeMask, mergeW, h]

/-- The image's entry of a write that was applied is no empty entry. -/
theorem imageEntry_w0 (a : BitVec 56) : pack [(60, 0), (56, Origin.code .image), (0, a.toNat)] ≠ 0 ∧
    fld (pack [(60, 0), (56, Origin.code .image), (0, a.toNat)]) 63 60 = 0 := by
  have ha := a.isLt
  have hw : (pack [(60, 0), (56, Origin.code .image), (0, a.toNat)]).toNat = 3 * 2 ^ 56 + a.toNat := by
    simp only [pack, Origin.code, List.foldl_cons, List.foldl_nil, BitVec.toNat_ofNat]; omega
  refine ⟨fun h => ?_, ?_⟩
  · rw [h] at hw; simp at hw; omega
  · simp only [fld, hw, Nat.shiftRight_eq_div_pow]; omega

/-- The image's write, once in the log. -/
theorem writeRefused_image (h : o.origin = .image) (off : Nat) (old new : Word) (ht : y.logTotal = s.logTotal) :
    writeRefused s (logWrite o off 0 old new y) = false := by
  obtain ⟨hne, hf⟩ := imageEntry_w0 y.sys.aon
  simp only [writeRefused, logWrite, ht, h]
  rw [mget_mset_value _ fun e => hne (congrArg LogEnt.w0 e), hf]
  simp

/-- The change log at its last count: an entry of the image entered twice is there once. -/
theorem logWrite_image_twice (h : o.origin = .image) (off : Nat) (old new : Word) (hs : satAdd y.logTotal 1 = y.logTotal) :
    logWrite o off 0 old new (logWrite o off 0 old new y) = logWrite o off 0 old new y := by
  obtain ⟨hne, -⟩ := imageEntry_w0 y.sys.aon
  simp only [logWrite, hs, h]
  rw [mset_mset_value _ fun e => hne (congrArg LogEnt.w0 e)]

/-- A write of a logged register that adds no entry of its own: the write, and its entry, from whatever origin (R346, R349). -/
theorem regWrite_logged (hy : regOp o r v (v &&& sizeMask o.size) s = y) (hd : (Reg.desc r).log = true)
    (ht : y.logTotal = s.logTotal) (hv : regVal (logIf o r s y) r = regVal y r) : regWrite o r v s = logIf o r s y := by
  have hlog : logIf o r s y = logWrite o (Reg.off r) 0 (regVal s r) (regVal y r) y := by simp [logIf, hd, ht]
  simp only [regWrite, hy]
  by_cases ho : o.origin = .image
  · have hr : writeRefused s (logIf o r s y) = false := hlog ▸ writeRefused_image ho _ _ _ ht
    simp only [ho, bne_self_eq_false, hr, Bool.false_eq_true, if_false, hv]
    split
    · next h =>
      rw [hlog] at h ⊢
      exact logWrite_image_twice ho _ _ _ (Eq.trans h ht.symm)
    · rfl
  · simp [ho]

/-- A write of a logged register that only stores. -/
theorem regWrite_stores (hop : ∀ w, regOp o r v w s = if (Reg.desc r).rw = 0 ∧ (Reg.desc r).rwl = 0 then s else plainWrite o r v s)
    (hw : (Reg.desc r).rw ≠ 0) (hf : (Reg.desc r).rwl = 0) (hd : (Reg.desc r).log = true) (hv : ∀ t, regVal t r = rd t r) :
    regWrite o r v s = logIf o r s (wr s r (stored o r v s)) := by
  refine regWrite_logged ((hop _).trans ((if_neg fun h => hw h.1).trans (plainWrite_free hf))) hd rfl ?_
  rw [hv, hv, logIf]; split <;> rfl

/-- The registers named by the statement store what is written. -/
theorem regWrite_configuration {q : Reg} (hq : q ∈ [Reg.lfTmo, .irqMap 0, .cmdTmo, .wakeAt]) :
    (Reg.desc q).rwl = 0 ∧ regWrite o q v s = logIf o q s (wr s q (stored o q v s)) := by
  simp only [List.mem_cons, List.not_mem_nil, or_false] at hq
  rcases hq with rfl | rfl | rfl | rfl <;>
    exact ⟨rfl, regWrite_stores (fun _ => rfl) (by decide) rfl rfl fun _ => rfl⟩

/-- A register command in a block that works is its effect, with its entry in the change log. -/
theorem writes_of_regCmd {c : Instr} {f : State → State} (h : live s = true) (he : exec c s = regCmd o r c f s) (hf : f s = y) :
    Writes c o r s y := by
  rw [Writes, Does, he, regCmd_live h, hf]

end Sys2Proof.Machine
end

section
/-! SUPPORT. The interrupt messages that were held (R288). -/

namespace Sys2Proof.Machine

variable {s : State} {o : Org} {k : Nat} {v : Word}

/-- A write of IRQ_MSG_CTL stores, and releases the held message where MASK was 1. -/
theorem irqCtlOp_eq (o : Org) (k : Nat) (v : Word) (s : State) :
    irqCtlOp o k v s = if bit (rd s (.irqMsgCtl k)) 2 then irqRelease (wr s (.irqMsgCtl k) (stored o (.irqMsgCtl k) v s)) k
      else wr s (.irqMsgCtl k) (stored o (.irqMsgCtl k) v s) := by
  simp only [irqCtlOp, plainWrite_free (r := .irqMsgCtl k) rfl]

/-- A message that is sent holds and drops no other. -/
theorem sendLast_irqPend {m : Msg} (h : linkOk s m.port = true) : (sendLast m s).irqPend = s.irqPend := by
  simp only [sendLast, h, Bool.not_true, Bool.false_eq_true, if_false]
  split <;> rfl

/-- A held message that goes out is held no more. -/
theorem irqRelease_sent (hk : k < 8) (hp : s.irqPend.getLsbD k = true) (hm : irqMode s k ≠ 0) (hb : bit (rd s (.irqMsgCtl k)) 2 = false)
    (hl : linkOk s .hbp = true) : (irqRelease s k).irqPend.getLsbD k = false := by
  have hg : (s.irqPend.getLsbD k && irqMode s k != 0 && !bit (rd s (.irqMsgCtl k)) 2 && linkOk s .hbp) = true := by simp [hp, hm, hb, hl]
  rw [irqRelease, if_pos hg, sendLast_irqPend (by exact hl)]
  show (s.irqPend &&& ~~~ BitVec.ofNat 8 (2 ^ k)).getLsbD k = false
  rw [BitVec.getLsbD_and, BitVec.getLsbD_not, BitVec.getLsbD_ofNat, Nat.testBit_two_pow_self]
  simp [hk]

end Sys2Proof.Machine
end

section
/-! SUPPORT. Peer regions: a write of P2P_CTL, the path it sets, and a probe's answer (R284). -/

namespace Sys2Proof.Machine

variable {s : State} {o : Org} {k : Nat} {v : Word}

/-- A region that is in use is not written. -/
theorem p2pOp_used (he : bit (rd s (.p2pCtl k)) 0 = true) (hu : regionUsed s k = true) :
    p2pOp o (.p2pCtl k) k v s = refuseReg o (.p2pCtl k) v s := by
  simp [p2pOp, he, hu]

/-- A region that is on and not in use stores what is written. -/
theorem p2pOp_on (he : bit (rd s (.p2pCtl k)) 0 = true) (hu : regionUsed s k = false) :
    p2pOp o (.p2pCtl k) k v s = wr s (.p2pCtl k) (stored o (.p2pCtl k) v s) := by
  simp [p2pOp, he, hu, plainWrite_free (r := .p2pCtl k) rfl]

/-- A region that is off stores what is written, and its path is set if it is then on. -/
theorem p2pOp_off (hw : mwf 0 s.regs = true) (he : bit (rd s (.p2pCtl k)) 0 = false) : p2pOp o (.p2pCtl k) k v s =
    if bit (stored o (.p2pCtl k) v s) 0 then regionOn k (wr s (.p2pCtl k) (stored o (.p2pCtl k) v s))
    else wr s (.p2pCtl k) (stored o (.p2pCtl k) v s) := by
  simp [p2pOp, he, plainWrite_free (r := .p2pCtl k) rfl, rd_wr hw]

/-- What a region of mode `m` begins as: its path set unless a probe is to decide it, and earlier probes of it forgotten. -/
def regionBegun (k m : Nat) (s : State) : State :=
  orphan (fun o => o == .probe (BitVec.ofNat 3 k)) (modRegion k (fun g => { g with ready := m != 0, bounce := m ≥ 2, pstat := 0 }) s)

/-- The path of a region in another mode than AUTO is set at once. -/
theorem regionOn_path (h : fld (rd s (.p2pCtl k)) 63 62 ≠ 0) : regionOn k s = regionBegun k (fld (rd s (.p2pCtl k)) 63 62) s := if_neg h

/-- AUTO probes the region. -/
theorem regionOn_auto (h : fld (rd s (.p2pCtl k)) 63 62 = 0) :
    regionOn k s = send (rdMsg .hbp (rd s (.p2pBase k)).toNat 1 2) (some (.probe (BitVec.ofNat 3 k))) (regionBegun k 0 s) := by
  simp only [regionOn, h, if_true]; rfl

/-- A region that has begun. -/
theorem region_begun (m : Nat) (s : State) (hk : k < 8) : (vget {} (regionBegun k m s).regions k : Region) =
    { vget {} s.regions k with ready := m != 0, bounce := m ≥ 2, pstat := 0 } := vget_vset_same _ _ _ _ hk

/-- The base of a region is none of its other registers. -/
theorem rd_p2pBase (w : Word) : rd (wr s (.p2pCtl k) w) (.p2pBase k) = rd s (.p2pBase k) := rd_wr_ne (by simp [Reg.off])

/-- A probe's answer decides the path. -/
theorem region_probeDone (hk : k < 8) (stat : Nat) (s : State) : (vget {} (probeDone k stat s).regions k : Region) =
    { vget {} s.regions k with ready := true, bounce := stat != 0, pstat := BitVec.ofNat 4 stat } := by
  rw [probeDone]
  split <;> exact vget_vset_same _ _ _ _ hk

/-- A probe's answer takes no other request. -/
theorem probeDone_inflight (stat : Nat) : (probeDone k stat s).inflight = s.inflight := by
  rw [probeDone]; split <;> rfl

/-- A probe that succeeds is no event. -/
theorem probeDone_good : (probeDone k 0 s).evt = s.evt := rfl

/-- A probe that fails is one. -/
theorem probeDone_bad {stat : Nat} (h : stat ≠ 0) : (probeDone k stat s).evt.getLsbD 0 = true := by
  simp [probeDone, h]

end Sys2Proof.Machine
end

section
/-! The host's registers and the interrupt messages. -/

namespace Sys2Proof.Machine

variable {s : State}

/-- A refused write raises ILLEGAL_OP and stores nothing. -/
theorem refuseReg_refuses (o : Org) (r : Reg) (v : Word) (s : State) : (refuseReg o r v s).flt.getLsbD 0x14 = true ∧
    (refuseReg o r v s).regs = s.regs ∧ (refuseReg o r v s).regions = s.regions := by
  refine ⟨raise_bit _ _ _ (by decide), ?_, ?_⟩ <;> rw [refuseReg, refuseWrite_frame]

/-- POP goes through the gate of its churn. -/
theorem exec_pop (o : Org) (n : BitVec 5) (s : State) :
    exec (.pop o n) s = churnGate n.toNat (.pop o n) (fun s => done (popOp n.toNat s)) s := rfl

/-- P2P_ENABLE at a region that is on (R284). -/
theorem p2pEnable_on (h : live s = true) (o : Org) (k : BitVec 3) (v : Word) (he : bit (rd s (.p2pCtl k.toNat)) 0 = true)
    (hu : regionUsed s k.toNat = false) :
    Writes (.p2pEnable o k v) o (.p2pCtl k.toNat) s (wr s (.p2pCtl k.toNat) (stored o (.p2pCtl k.toNat) (v ||| 1) s)) :=
  writes_of_regCmd h rfl (p2pOp_on he hu)

/-- P2P_ENABLE at a region that is off, and then on: its path is set in the state that holds the new value (R284). -/
theorem p2pEnable_rises (h : live s = true) (hw : mwf 0 s.regs = true) (o : Org) (k : BitVec 3) (v : Word)
    (he : bit (rd s (.p2pCtl k.toNat)) 0 = false) (hn : bit (stored o (.p2pCtl k.toNat) (v ||| 1) s) 0 = true) :
    Writes (.p2pEnable o k v) o (.p2pCtl k.toNat) s
      (regionOn k.toNat (wr s (.p2pCtl k.toNat) (stored o (.p2pCtl k.toNat) (v ||| 1) s))) :=
  writes_of_regCmd h rfl ((p2pOp_off hw he).trans (if_pos hn))

/-- P2P_ENABLE at a region that stays off, EN being outside the half written. -/
theorem p2pEnable_stays (h : live s = true) (hw : mwf 0 s.regs = true) (o : Org) (k : BitVec 3) (v : Word)
    (he : bit (rd s (.p2pCtl k.toNat)) 0 = false) (hn : bit (stored o (.p2pCtl k.toNat) (v ||| 1) s) 0 = false) :
    Writes (.p2pEnable o k v) o (.p2pCtl k.toNat) s (wr s (.p2pCtl k.toNat) (stored o (.p2pCtl k.toNat) (v ||| 1) s)) :=
  writes_of_regCmd h rfl ((p2pOp_off hw he).trans (if_neg (ne_true_of_eq_false hn)))

/-- P2P_PROBE_RESPONSE while no probe of the region is out. -/
theorem p2pProbeResponse_none (h : live s = true) (k : BitVec 3) (stat : BitVec 4)
    (hp : s.inflight.any (fun f => f.owner == .probe k) = false) : Does (.p2pProbeResponse k stat) s s := by
  show execP2pProbeResponse k stat s = _
  simp only [execP2pProbeResponse, inner_live h, takeFlight, takeOut_none hp, Option.map_none]

/-- P2P_PROBE_RESPONSE to a probe that is out: the probe is taken out, and its answer decides the path (R284). -/
theorem p2pProbeResponse_some (h : live s = true) (k : BitVec 3) (stat : BitVec 4)
    (hp : s.inflight.any (fun f => f.owner == .probe k) = true) : ∃ r, r.length + 1 = s.inflight.length ∧
      Does (.p2pProbeResponse k stat) s (probeDone k.toNat stat.toNat { s with inflight := r }) := by
  obtain ⟨f, r, hr, hl⟩ := takeOut_some hp
  refine ⟨r, hl, ?_⟩
  show execP2pProbeResponse k stat s = _
  simp only [execP2pProbeResponse, inner_live h, takeFlight, hr, Option.map_some]

/-- Settles O54: each clause is the rule of its command or of its register, from the parts above. -/
theorem hostRegisters : Obligations.HostRegisters := by
  intro s o off v n h hw
  refine ⟨fun hq => ⟨registerWrite_unoccupied h hq, rcCounterRead_unoccupied hq⟩, fun q hq => ⟨?hub, ?active, ?waits⟩,
    fun q hq => ?stores, fun c hc => ⟨rfl, regRead_fltCnt_cleared hc s, by rw [regRead_fltCnt]⟩,
    fun q hq => regRead_plain hq, writes_of_regCmd h rfl rfl,
    fun hp => ⟨popOp n.toNat s, (exec_pop ..).trans (churnGate_active h hp), ?popped, rfl, fun _ hk => churnAt_modChurn_ne hk⟩,
    fun hp => waits_for_churn n.isLt hp ((exec_pop ..).trans (churnGate_waits h hp)),
    ⟨planClear s, writes_of_regCmd h rfl rfl, rfl, fun k hk => ?cleared, rfl⟩,
    fun k w => ⟨_, rfl, rd_wr hw, writes_of_regCmd h rfl (irqCtlOp_eq o k.toNat w s), fun hp hb hm hl => ?released⟩,
    fun k => ⟨fun he hu => ?used, fun he hn hm => ?path, fun he hn hm => ?auto, fun he hu => p2pEnable_on h o k v he hu,
      fun he hn => p2pEnable_stays h hw o k v he hn⟩,
    fun k stat => ⟨p2pProbeResponse_none h k stat, fun hp => ?probed⟩⟩
  case hub => exact fun hn => ⟨registerWrite_hub h hq hn, rcCounterRead_hub h hq hn⟩
  case active => exact fun m hn hp => ⟨registerWrite_active h hq hn hp, rcCounterRead_active h hq hn hp⟩
  case waits =>
    exact fun m hm hn hp => ⟨waits_for_churn hm hp (registerWrite_waits h hq hn hp),
      waits_for_churn hm hp (rcCounterRead_waits h hq hn hp)⟩
  case stores =>
    obtain ⟨hf, hr⟩ := regWrite_configuration hq
    exact ⟨_, hr, (rd_wr hw).trans (stored_free hf), fun _ hne => rd_wr_ne hne⟩
  case popped => exact congrArg Churn.flags (churnAt_modChurn_same n.isLt)
  case cleared =>
    have hc : churnAt (planClear s) k = { churnAt s k with lslRaw := 0, lslSect := 0, whey := 0 } := churnAt_map hk
    rw [hc]; exact ⟨rfl, rfl, rfl⟩
  case released =>
    refine irqRelease_sent k.isLt hp ?_ ?_ hl
    · rw [irqMode, rd_wr hw]; exact hm
    · rw [rd_wr hw]; exact hb
  case used => exact ⟨_, writes_of_regCmd h rfl (p2pOp_used he hu), refuseReg_refuses ..⟩
  case path =>
    have hrd := rd_wr (r := .p2pCtl k.toNat) (v := stored o (.p2pCtl k.toNat) (v ||| 1) s) hw
    refine ⟨_, p2pEnable_rises h hw o k v he hn, ?_⟩
    rw [regionOn_path (by rw [hrd]; exact hm), hrd, region_begun _ _ k.isLt]
    exact ⟨hrd, by simpa using hm, rfl, rfl⟩
  case auto =>
    have hrd := rd_wr (r := .p2pCtl k.toNat) (v := stored o (.p2pCtl k.toNat) (v ||| 1) s) hw
    refine ⟨_, regionBegun k.toNat 0 (wr s (.p2pCtl k.toNat) (stored o (.p2pCtl k.toNat) (v ||| 1) s)),
      p2pEnable_rises h hw o k v he hn, ?_, ?_, hrd⟩
    · rw [regionOn_auto (by rw [hrd]; exact hm), rd_p2pBase, BitVec.ofNat_toNat, BitVec.setWidth_eq]
    · rw [region_begun _ _ k.isLt]; rfl
  case probed =>
    obtain ⟨r, hl, hd⟩ := p2pProbeResponse_some h k stat hp
    refine ⟨_, hd, by rw [probeDone_inflight]; exact hl, fun hs => probeDone_bad fun e => hs (BitVec.eq_of_toNat_eq e), ?_, ?_⟩
    · rintro rfl; exact probeDone_good
    · rw [region_probeDone k.isLt, BitVec.ofNat_toNat, BitVec.setWidth_eq]
      exact ⟨rfl, Bool.eq_iff_iff.mpr (by simp [BitVec.toNat_eq]), rfl⟩

end Sys2Proof.Machine
end

section
/-! SUPPORT. Sums of a counter of sixteen bits, and the additions to a semaphore pair (R249, R254). -/

namespace Sys2Proof.Machine

variable {s : State} {p n : Nat} {e : Bool} {w : Word}

/-- A sum that fits in sixteen bits. -/
theorem toNat_add_ofNat16 {v : BitVec 16} (h : v.toNat + n ≤ 65535) : (v + BitVec.ofNat 16 n).toNat = v.toNat + n := by
  rw [BitVec.toNat_add, BitVec.toNat_ofNat]; omega

/-- A sum that fits is stored in its counter, and the pair's context takes EMPTY (R249, R254). -/
theorem semAdd_fits (h : semFits s p e n = true) : ∃ y, semAdd p e n w s = takeEmpty p (setPair s p y) ∧
    (e = true → y.empty.toNat = (pairAt s p).empty.toNat + n ∧ y.full = (pairAt s p).full) ∧
    (e = false → y.full.toNat = (pairAt s p).full.toNat + n ∧ y.empty = (pairAt s p).empty) := by
  refine ⟨_, if_pos h, ?_, ?_⟩ <;> rintro rfl <;> exact ⟨toNat_add_ofNat16 (of_decide_eq_true h), rfl⟩

/-- A sum that does not fit is dropped with SEM_OVERFLOW (R254). -/
theorem semAdd_overflow (h : semFits s p e n = false) :
    (semAdd p e n w s).flt.getLsbD 0x15 = true ∧ (semAdd p e n w s).pairs = s.pairs := by
  rw [semAdd, if_neg (ne_true_of_eq_false h)]
  refine ⟨raise_bit _ _ s (by decide), ?_⟩
  rw [raise_plain _ _ s (by decide) (by decide)]

end Sys2Proof.Machine
end

section
/-! SUPPORT. How a message comes in at CCP_INB: behind others, malformed, or to its effect (R28, R33, R42). -/

namespace Sys2Proof.Machine

variable {s : State} {h : Word} {c : Instr} {f : State → State}

/-- What becomes of a message that arrives. -/
theorem ccpIn_arrives (ha : arrives s .ccp 1) : ccpIn h f c s = done (
    if ordered s .ccp 0 (h.extractLsb' 38 2) then hold c s
    else if fld h 63 56 != 5 || fld h 39 38 == 3 then tagFault .ccp h.toNat s else f s) := by
  obtain ⟨hl, hk, hx⟩ := ha
  rw [ccpIn, hostGate_live hl]
  simp only [hk, hx, Bool.not_true, Bool.false_eq_true, if_false]

/-- A message waits for those before it that its class puts first. -/
theorem does_ccp_waits (he : exec c s = ccpIn h f c s) (ha : arrives s .ccp 1) (ho : ordered s .ccp 0 (h.extractLsb' 38 2) = true) :
    Does c s { s with bridges := s.bridges ++ [c] } := by
  rw [Does, he, ccpIn_arrives ha, if_pos ho]; rfl

/-- A header of another opcode, or of the reserved class, is a TAG_FAULT. -/
theorem does_ccp_malformed (he : exec c s = ccpIn h f c s) (ha : arrives s .ccp 1)
    (ho : ordered s .ccp 0 (h.extractLsb' 38 2) = false) (hb : fld h 63 56 ≠ 5 ∨ fld h 39 38 = 3) :
    ∃ x, Does c s x ∧ x.flt.getLsbD 0x13 = true ∧ x = { s with flt := x.flt, flts := x.flts } := by
  refine ⟨tagFault .ccp h.toNat s, ?_, tagFault_bit .., tagFault_faults ..⟩
  rw [Does, he, ccpIn_arrives ha, if_neg (ne_true_of_eq_false ho), if_pos (by simpa using hb)]; rfl

/-- A sound message that is the first has its effect. -/
theorem does_ccp (he : exec c s = ccpIn h f c s) (ha : arrives s .ccp 1)
    (ho : ordered s .ccp 0 (h.extractLsb' 38 2) = false ∧ fld h 63 56 = 5 ∧ fld h 39 38 ≠ 3) : Does c s (f s) := by
  obtain ⟨ho, h5, h3⟩ := ho
  rw [Does, he, ccpIn_arrives ha, if_neg (ne_true_of_eq_false ho), if_neg (by simp [h5, h3])]; rfl

end Sys2Proof.Machine
end

section
/-! SUPPORT. TICKET_DONE: the slot it frees, and what its status does (R122 to R126). -/

namespace Sys2Proof.Machine

variable {s : State} {i j k hdr : Nat} {w : Word} {f : Plan → Plan}

/-- A bit of ASTAT that is set. -/
theorem setAstat_bit (h : i < 5) (s : State) : (setAstat i s).sep.astat.getLsbD i = true := by
  show (s.sep.astat ||| BitVec.ofNat 5 (2 ^ i)).getLsbD i = true
  rw [BitVec.getLsbD_or, BitVec.getLsbD_ofNat, Nat.testBit_two_pow_self, decide_eq_true h, Bool.and_self, Bool.or_true]

/-- The other bits of ASTAT stay. -/
theorem setAstat_keeps (h : s.sep.astat.getLsbD j = true) : (setAstat i s).sep.astat.getLsbD j = true := by
  simp [setAstat, h]

/-- A plan counter changes the plan counters alone. -/
theorem plan_frame (f : Plan → Plan) (s : State) : plan f s = { s with plan := (plan f s).plan } := by
  unfold plan; split <;> rfl

/-- The failure of a ticket shows in ASTAT bit 2, and is counted. -/
theorem ticketFail_frame (s : State) :
    ticketFail s = { s with sep := (setAstat 2 s).sep, plan := (ticketFail s).plan } := by
  rw [ticketFail, plan_frame]; rfl

/-- An abort shows in ASTAT bit 0, and takes no ticket. -/
theorem abortCtx_sep_tickets (i churn kind info : Nat) (s : State) :
    (abortCtx i churn kind info s).sep = (setAstat 0 s).sep ∧ (abortCtx i churn kind info s).tickets = s.tickets := by
  simp only [abortCtx, abortTasks]
  constructor <;> split <;> split <;> rfl

/-- A slot whose ticket is done: free, with its sequence number kept, and the plan counters moved on by `f`. -/
def ticketFreed (i : Nat) (f : Plan → Plan) (s : State) : State :=
  plan f (setTicket s i { ticketAt s i with taken := false, ctx := 0, inst := none, aon := 0 })

/-- Freeing a slot changes the tickets and the plan counters alone. -/
theorem ticketFreed_frame (i : Nat) (f : Plan → Plan) (s : State) :
    ticketFreed i f s = { s with tickets := (ticketFreed i f s).tickets, plan := (ticketFreed i f s).plan } := by
  rw [ticketFreed, plan_frame]; rfl

/-- The slots after one was freed. -/
theorem tickets_ticketFreed (h : mwf ({} : Ticket) s.tickets = true) {x : State} (hx : x.tickets = (ticketFreed i f s).tickets) :
    (ticketAt x i).taken = false ∧ (ticketAt x i).seq = (ticketAt s i).seq ∧ ∀ j, j ≠ i → ticketAt x j = ticketAt s j := by
  have ht : x.tickets = mset {} s.tickets i { ticketAt s i with taken := false, ctx := 0, inst := none, aon := 0 } := by
    rw [hx, ticketFreed, plan_frame]; rfl
  simp only [ticketAt, ht, mget_mset_same h, true_and]
  exact fun j hj => mget_mset_ne hj

/-- A TICKET_DONE that is not the slot's is a TAG_FAULT (R123). -/
theorem ticketDoneMsg_stranger
    (h : (ticketAt s (fld w 7 0)).taken = false ∨ (ticketAt s (fld w 7 0)).seq.toNat ≠ fld w 15 8) :
    ticketDoneMsg hdr w s = tagFault .ccp hdr s := by
  have hs : (ticketAt s (fld w 7 0)).seq.toNat ≠ fld w 15 8 → (ticketAt s (fld w 7 0)).seq ≠ BitVec.ofNat 8 (fld w 15 8) :=
    fun hn e => hn (by rw [e, BitVec.toNat_ofNat]; exact Nat.mod_eq_of_lt (Nat.mod_lt _ (by decide)))
  exact if_pos (by simpa using h.imp_right hs)

/-- The latency of a ticket in the plan counters (R129). -/
def latencyCounted (lat : Nat) (p : Plan) : Plan :=
  { p with latSum := satAdd p.latSum lat, latMax := if p.latMax.toNat < lat then BitVec.ofNat 32 (min lat (2 ^ 32 - 1)) else p.latMax }

/-- What the status of a TICKET_DONE `w` for ticket `k` does, once its slot is free (R122 to R126). -/
def ticketStatus (k : Ticket) (w : Word) (s : State) : State :=
  match fld w 19 16 with
  | 0 => s
  | 2 =>
    if s.step.open_ && k.inst == some s.step.inst then raise 0xC (recWord none 0xF6 0 11) (BitVec.ofNat 64 (fld w 15 0)) s
    else ticketFail s
  | _ =>
    let s := setAstat 0 (ticketFail s)
    if (ctxAt s k.ctx.toNat).st == .opened then abortCtx k.ctx.toNat 0 5 (fld w 15 0) s else s

/-- A TICKET_DONE that is the slot's frees it, and then its status says what else it does (R122 to R126). -/
theorem ticketDoneMsg_own (ht : (ticketAt s (fld w 7 0)).taken = true) (hs : (ticketAt s (fld w 7 0)).seq.toNat = fld w 15 8) :
    ticketDoneMsg hdr w s = ticketStatus (ticketAt s (fld w 7 0)) w
      (ticketFreed (fld w 7 0) (latencyCounted (s.sys.aon - (ticketAt s (fld w 7 0)).aon).toNat) s) := by
  have hq : (ticketAt s (fld w 7 0)).seq = BitVec.ofNat 8 (fld w 15 8) := BitVec.eq_of_toNat_eq (by
    rw [hs, BitVec.toNat_ofNat]; exact (Nat.mod_eq_of_lt (Nat.mod_lt _ (by decide))).symm)
  exact if_neg (by simp [ht, hq])

/-- The ticket's work succeeded: nothing else. -/
theorem ticketStatus_ok {k : Ticket} (h : fld w 19 16 = 0) : ticketStatus k w s = s := by
  simp only [ticketStatus, h]

/-- A non-finite result of the open step raises NONFINITE, and of an earlier one shows in ASTAT (R123). -/
theorem ticketStatus_nonfinite {k : Ticket} (h : fld w 19 16 = 2) : ticketStatus k w s =
    if s.step.open_ && k.inst == some s.step.inst then raise 0xC (recWord none 0xF6 0 11) (BitVec.ofNat 64 (fld w 15 0)) s
    else ticketFail s := by
  simp only [ticketStatus, h]

/-- A failed ticket shows in ASTAT bits 0 and 2, and aborts its context if that is OPEN (R124). -/
theorem ticketStatus_failed {k : Ticket} (h0 : fld w 19 16 ≠ 0) (h2 : fld w 19 16 ≠ 2) : ticketStatus k w s =
    if (ctxAt s k.ctx.toNat).st == .opened then abortCtx k.ctx.toNat 0 5 (fld w 15 0) (setAstat 0 (ticketFail s))
    else setAstat 0 (ticketFail s) := by
  have hc : ctxAt (setAstat 0 (ticketFail s)) = ctxAt s := by rw [ticketFail_frame]; rfl
  rw [← hc]
  unfold ticketStatus
  split
  · next h => exact absurd h h0
  · next h => exact absurd h h2
  · rfl

/-- The status of a TICKET_DONE leaves the slots as they are. -/
theorem ticketStatus_tickets (k : Ticket) (w : Word) (s : State) : (ticketStatus k w s).tickets = s.tickets := by
  have hf : (ticketFail s).tickets = s.tickets := by rw [ticketFail_frame]
  by_cases h0 : fld w 19 16 = 0
  · rw [ticketStatus_ok h0]
  · by_cases h2 : fld w 19 16 = 2
    · rw [ticketStatus_nonfinite h2]
      split
      · rw [raise_frame]
      · exact hf
    · rw [ticketStatus_failed h0 h2]
      split
      · exact (abortCtx_sep_tickets ..).2.trans hf
      · exact hf

/-- A failed ticket: ASTAT bits 0 and 2, and no context changes but the ticket's if it is OPEN. -/
theorem ticketStatus_failed_effect {k : Ticket} (h0 : fld w 19 16 ≠ 0) (h2 : fld w 19 16 ≠ 2) :
    (ticketStatus k w s).sep.astat.getLsbD 0 = true ∧ (ticketStatus k w s).sep.astat.getLsbD 2 = true ∧
      ((ctxAt s k.ctx.toNat).st ≠ .opened → (ticketStatus k w s).ctxs = s.ctxs) := by
  have hf : (ticketFail s).sep.astat.getLsbD 2 = true := by rw [ticketFail_frame]; exact setAstat_bit (by decide) s
  have b0 := setAstat_bit (i := 0) (by decide) (ticketFail s)
  have b2 := setAstat_keeps (i := 0) hf
  rw [ticketStatus_failed h0 h2]
  split
  · next ho =>
    rw [(abortCtx_sep_tickets ..).1]
    exact ⟨setAstat_keeps b0, setAstat_keeps b2, fun hn => absurd (eq_of_beq ho) hn⟩
  · exact ⟨b0, b2, fun _ => by rw [ticketFail_frame]; rfl⟩

end Sys2Proof.Machine
end

section
/-! The messages on CCP_INB. -/

namespace Sys2Proof.Machine

variable {s : State} {h w : Word} {hdr : BitVec 128}

/-- TICKET_DONE comes in at CCP_INB. -/
theorem exec_ticketDone : exec (.ticketDone ⟨h, w⟩) s = ccpIn h (ticketDoneMsg h.toNat w) (.ticketDone ⟨h, w⟩) s := rfl

/-- SEM_SIGNAL comes in at CCP_INB. -/
theorem exec_semSignal : exec (.semSignal ⟨h, w⟩) s =
    ccpIn h (semAdd (fld w 11 0) (bit w 12) (fld w 31 16) (portRec .ccp)) (.semSignal ⟨h, w⟩) s := rfl

/-- What a LAYER_START leaves: the base of deadlines is now (R259). -/
def layerStarted (w : Word) (s : State) : State :=
  { s with layerStart := some s.sys.now, paceOn := true, paceCyc := 0, paceLayer := w.setWidth 16 }

/-- LAYER_START comes in at CCP_INB. -/
theorem exec_layerStart : exec (.layerStart ⟨h, w⟩) s = ccpIn h (layerStarted w) (.layerStart ⟨h, w⟩) s := rfl

/-- What a message of another kind leaves: nothing, if its kind has a row of its own, and else ILLEGAL_OP (R29). -/
def messageDropped (hdr : BitVec 128) (s : State) : State :=
  if [2, 3, 4].contains (fld hdr 7 0) then s else raise 0x14 (portRec .ccp) (hdr.extractLsb' 0 64) s

/-- A message of another kind comes in at CCP_INB. -/
theorem exec_ccpMessageDrop :
    exec (.ccpMessageDrop hdr) s = ccpIn (hdr.extractLsb' 64 64) (messageDropped hdr) (.ccpMessageDrop hdr) s := rfl

/-- Each message with a meaning comes in at CCP_INB. -/
theorem exec_ccpMessage {c : Instr} (hc : c ∈ [Instr.ticketDone ⟨h, w⟩, .layerStart ⟨h, w⟩, .semSignal ⟨h, w⟩]) :
    ∃ f, exec c s = ccpIn h f c s := by
  simp only [List.mem_cons, List.not_mem_nil, or_false] at hc
  rcases hc with rfl | rfl | rfl
  · exact ⟨_, exec_ticketDone⟩
  · exact ⟨_, exec_layerStart⟩
  · exact ⟨_, exec_semSignal⟩

/-- Settles O43: a message waits, is refused for its header, or has its effect; what each effect is stands above. -/
theorem ccpMessages : Obligations.CcpMessages := by
  intro s h w hdr ha hmt _
  refine ⟨fun c hc => ?message, fun hs => ⟨fun hk => ?stranger, fun ht hq => ?own, does_ccp exec_layerStart ha hs,
    fun he hn => ?full, fun he hn => ?empty, fun hn => ?overflow⟩, fun hs hk => ?unknown,
    fun hf hb => does_ccp_malformed exec_ccpMessageDrop ha hf hb⟩
  case message =>
    obtain ⟨f, he⟩ := exec_ccpMessage (s := s) hc
    exact ⟨fun hf => does_ccp_waits he ha (eq_true_of_ne_false hf), fun hf hb => does_ccp_malformed he ha hf hb⟩
  case stranger =>
    refine ⟨tagFault .ccp h.toNat s, ticketDoneMsg_stranger hk ▸ does_ccp exec_ticketDone ha hs, tagFault_bit .., ?_⟩
    rw [tagFault_faults]; exact ⟨rfl, rfl⟩
  case own =>
    have hd := does_ccp (exec_ticketDone (w := w)) ha hs
    rw [ticketDoneMsg_own ht hq] at hd
    obtain ⟨hi, hseq, hj⟩ := tickets_ticketFreed hmt (ticketStatus_tickets (ticketAt s (fld w 7 0)) w
      (ticketFreed (fld w 7 0) (latencyCounted (s.sys.aon - (ticketAt s (fld w 7 0)).aon).toNat) s))
    refine ⟨_, hd, hi, hseq, hj, fun h0 => ?_, fun h2 hown => ?_, fun h2 hown => ?_, fun h0 h2 => ?_⟩
    · rw [ticketStatus_ok h0, ticketFreed_frame]; exact ⟨rfl, rfl, rfl, rfl⟩
    · rw [ticketStatus_nonfinite h2, ticketFreed_frame, if_pos (by simpa using hown)]
      exact raise_bit _ _ _ (by decide)
    · rw [ticketStatus_nonfinite h2, ticketFreed_frame, if_neg (by simpa using hown), ticketFail_frame]
      exact ⟨rfl, setAstat_bit (by decide) _, rfl⟩
    · obtain ⟨b0, b2, hc⟩ := ticketStatus_failed_effect h0 h2
      refine ⟨b0, b2, fun hn => ?_⟩
      rw [ticketFreed_frame] at hc ⊢
      exact hc hn
  case full =>
    obtain ⟨y, hy, -, hf⟩ := semAdd_fits (w := portRec .ccp) (e := false) (decide_eq_true hn)
    refine ⟨y, ?_, hf rfl⟩
    have hd := does_ccp (exec_semSignal (w := w)) ha hs
    rwa [show bit w 12 = false from he, hy] at hd
  case empty =>
    obtain ⟨y, hy, hf, -⟩ := semAdd_fits (w := portRec .ccp) (e := true) (decide_eq_true hn)
    refine ⟨y, ?_, hf rfl⟩
    have hd := does_ccp (exec_semSignal (w := w)) ha hs
    rwa [show bit w 12 = true from he, hy] at hd
  case overflow => exact ⟨_, does_ccp exec_semSignal ha hs, semAdd_overflow (decide_eq_false (Nat.not_le.mpr hn))⟩
  case unknown =>
    refine ⟨raise 0x14 (portRec .ccp) (hdr.extractLsb' 0 64) s, ?_, raise_bit _ _ s (by decide), ?_⟩
    · have hd := does_ccp exec_ccpMessageDrop ha hs
      rwa [messageDropped, if_neg (by simpa using hk)] at hd
    · rw [raise_plain _ _ s (by decide) (by decide)]; exact ⟨rfl, rfl⟩

end Sys2Proof.Machine
end

section
/-! SUPPORT. Ports: a read after a replacement, and a queue without messages (R38, R39, R47). -/

namespace Sys2Proof.Machine

variable {s : State} {p q : PortId} {x : Port} {k : Nat}

/-- The number of a port is below the number of ports. -/
theorem portIx_lt (p : PortId) : portIx p < 68 := by cases p <;> simp only [portIx] <;> omega

/-- A port is the one with its number. -/
theorem portNo_portIx (p : PortId) : portNo (portIx p) = p := by
  cases p with
  | mp n =>
    have h : n.toNat < 32 := n.isLt
    simp only [portNo, portIx, if_pos h, mpP, BitVec.ofNat_toNat, BitVec.setWidth_eq]
  | fp n =>
    have h : ¬32 + n.toNat < 32 := by omega
    have h' : 32 + n.toNat < 64 := by omega
    simp only [portNo, portIx, if_neg h, if_pos h', Nat.add_sub_cancel_left, fpP, BitVec.ofNat_toNat, BitVec.setWidth_eq]
  | hbp | pp | cp | ccp => rfl

/-- Two ports have two numbers. -/
theorem portIx_ne (h : q ≠ p) : portIx p ≠ portIx q :=
  fun he => h (by rw [← portNo_portIx q, ← he, portNo_portIx])

/-- A port just replaced. -/
theorem portAt_setPort_same : portAt (setPort s p x) p = x := vget_vset_same _ _ _ _ (portIx_lt p)

/-- Another port than the one replaced. -/
theorem portAt_setPort_ne (h : q ≠ p) : portAt (setPort s p x) q = portAt s q := vget_vset_ne _ _ _ _ _ (portIx_ne h)

/-- No message waits for port `p`. -/
def portIdle (s : State) (p : PortId) : Prop := ∀ x ∈ s.txq, x.m.port ≠ p

/-- A port for which no message waits drives none. -/
theorem nextTx_idle (h : portIdle s p) : nextTx p s = none := by
  have hq (g : TxReq → Bool) : s.txq.find? (fun x => x.m.port == p && g x) = none :=
    List.find?_eq_none.mpr fun x hx => by simp [h x hx]
  have ht : takeOut (fun x => x.m.port == p) s.txq = none :=
    takeOut_none (List.any_eq_false.mpr fun x hx => by simpa using h x hx)
  cases p with
  | mp n =>
    have hn : mpP n.toNat = .mp n := by simp [mpP]
    have hh : (List.range 8).filterMap (fun _ => (none : Option (Nat × TxReq))) = [] := rfl
    have hg : mpGrant s n.toNat = none := by
      simp only [mpGrant, hn, hq, Option.map_none, hh, List.filter_nil, List.map_nil, List.find?_nil, List.head?_nil]
    simp only [nextTx, hg]
  | fp n =>
    have hn : fpP n.toNat = .fp n := by simp [fpP]
    have hf : s.txq.filter (fun x => x.m.port == .fp n) = [] := List.filter_eq_nil_iff.mpr fun x hx => by simpa using h x hx
    have hg : fpGrant s n.toNat = none := by simp [fpGrant, hn, hf]
    simp [nextTx, hg]
  | hbp | pp | cp | ccp => simp [nextTx, ht]

/-- Nothing is driven there, in any number of turns. -/
theorem pump_idle (h : portIdle s p) : pump p k s = s := by
  cases k with
  | zero => rfl
  | succ k => simp [pump, nextTx_idle h]

/-- The port's queue stays as it is. -/
theorem pumpAll_idle (h : portIdle s p) : pumpAll p s = s := pump_idle h

/-- Nothing completed inside the block. -/
theorem finish_none (h : s.dead = []) : finish s = s := by simp [finish, h]

end Sys2Proof.Machine
end

section
/-! SUPPORT. Responses and their time-outs (R34, R37, R46). -/

namespace Sys2Proof.Machine

variable {s : State} {p : PortId} {tag : BitVec 16} {stat : BitVec 4} {data : List Byte} {f : Flight} {r : List Flight} {k : Nat}

/-- The data of an OK response: of the length asked for, beginning with what came; only the free counter moves on. -/
theorem fitData_spec (k : Nat) (data : List Byte) (s : State) : ∃ z, (fitData k data s).2 = { s with freeCtr := z } ∧
    (fitData k data s).1.length = k ∧ (fitData k data s).1.take data.length = data.take k := by
  simp only [fitData]
  split
  · next h =>
    exact ⟨s.freeCtr, rfl, List.length_take_of_le h, by rw [List.take_take, Nat.min_eq_right h]⟩
  · next h =>
    refine ⟨_, rfl, by simp; omega, ?_⟩
    rw [List.take_left' rfl, List.take_of_length_le (by omega)]

/-- A response to no request in flight is a TAG_FAULT (R37). -/
theorem responseIn_stray (h : s.inflight.any (fun f => f.port == p && f.tag == tag) = false) (hl : s.late.contains (p, tag) = false) :
    responseIn p tag stat data s = tagFault p (rspHi tag stat data) s := by
  simp only [responseIn, takeOut_none h, hl, Bool.false_eq_true, if_false]

/-- A late response only frees its tag (R46). -/
theorem responseIn_late (h : s.inflight.any (fun f => f.port == p && f.tag == tag) = false) (hl : s.late.contains (p, tag) = true) :
    responseIn p tag stat data s = pumpAll p { s with late := s.late.filter fun l => l != (p, tag) } := by
  simp only [responseIn, takeOut_none h, hl, if_true]

/-- A response to a request in flight reaches its owner and frees the tag (R34). -/
theorem responseIn_owner (h : takeOut (fun f => f.port == p && f.tag == tag) s.inflight = some (f, r)) : ∃ z e,
    responseIn p tag stat data s = pumpAll p (finish (answered f (statErr stat.toNat) e { s with inflight := r, freeCtr := z })) ∧
    (f.rd = true → statErr stat.toNat = 0 → e.length = f.len ∧ e.take data.length = data.take f.len) := by
  simp only [responseIn, h]
  by_cases he : statErr stat.toNat = 0
  · by_cases hr : f.rd = true
    · obtain ⟨z, hz, hd⟩ := fitData_spec f.len data { s with inflight := r }
      refine ⟨z, _, ?_, fun _ _ => hd⟩
      simp only [he, hr, bne_self_eq_false, Bool.false_eq_true, if_false, if_true, hz]
    · refine ⟨s.freeCtr, [], ?_, fun h1 => absurd h1 hr⟩
      simp only [he, hr, bne_self_eq_false, Bool.false_eq_true, if_false]
  · refine ⟨s.freeCtr, data, ?_, fun _ h0 => absurd h0 he⟩
    simp only [bne_iff_ne.mpr he, if_true]

/-- A request that is no one's any more leaves nothing when it is answered. -/
theorem answered_gone (h : f.owner = .gone) : answered f k data s = s := by simp only [answered, h]

/-- What follows the answer of such a request, when nothing waits. -/
theorem answered_gone_settled (h : f.owner = .gone) (hd : s.dead = []) (hi : portIdle s p) :
    pumpAll p (finish (answered f k data s)) = s := by
  rw [answered_gone h, finish_none hd, pumpAll_idle hi]

/-- A response at a requester channel of a block that works. -/
theorem does_mpResponse (h : live s = true) (hl : linkOk s p = true) (hr : isRequester p = true) :
    Does (.mpResponse p tag stat data) s (responseIn p tag stat data s) := by
  show execMpResponse p tag stat data s = _
  simp only [execMpResponse, hr, hl, hostGate_live h, Bool.not_true, Bool.false_eq_true, if_false]; rfl

/-- A response on a link that is down is lost (R48). -/
theorem mpResponse_linkDown (h : live s = true) (hl : linkOk s p = false) : exec (.mpResponse p tag stat data) s = .next s := by
  show execMpResponse p tag stat data s = _
  simp only [execMpResponse, hostGate_live h, hl, Bool.not_false, if_true, ite_self]

/-- A timer that is off, or of no request in flight, does not expire. -/
theorem timeoutIn_none (h : tmoField s p = 0 ∨ s.inflight.any (fun f => f.port == p && f.tag == tag) = false) : timeoutIn p tag s = s := by
  rcases h with h | h
  · simp only [timeoutIn, h, if_true]; split <;> rfl
  · simp only [timeoutIn, takeOut_none h]

/-- An expired timer completes its request, and the tag stays out until the late response (R46). -/
theorem timeoutIn_some (ht : tmoField s p ≠ 0) (h : takeOut (fun f => f.port == p && f.tag == tag) s.inflight = some (f, r)) :
    timeoutIn p tag s = pumpAll p (finish (answered f 2 [] { s with inflight := r, late := s.late ++ [(p, tag)] })) := by
  simp only [timeoutIn, h, if_neg ht]

/-- A time-out in a block that works. -/
theorem does_responseTimeout (h : live s = true) : Does (.responseTimeout p tag) s (timeoutIn p tag s) := inner_live h _

end Sys2Proof.Machine
end

section
/-! SUPPORT. Credits that return (R38, R40). -/

namespace Sys2Proof.Machine

variable {s : State} {p : PortId} {h : BitVec 4} {d : BitVec 8}

/-- The block sends on every port but CP (R28). -/
theorem sendsOn_of_ne (hp : p ≠ .cp) : sendsOn p = true := by
  cases p with
  | cp => exact absurd rfl hp
  | mp n | fp n | hbp | pp | ccp => rfl

/-- Credits that come while fclk is stopped wait for it. -/
theorem does_creditReturn_stopped (hr : inReset s = false) (hl : linkOk s p = true) (hp : p ≠ .cp) (hf : fclkOn s = false) :
    Does (.creditReturn p h d) s (hold (.creditReturn p h d) s) := by
  show execCreditReturn p h d s = _
  simp [execCreditReturn, sendsOn_of_ne hp, hr, hl, hf, done]

/-- Credits are added while fclk runs. -/
theorem does_creditReturn (hr : inReset s = false) (hl : linkOk s p = true) (hp : p ≠ .cp) (hf : fclkOn s = true) :
    Does (.creditReturn p h d) s (creditIn p h.toNat d.toNat s) := by
  show execCreditReturn p h d s = _
  simp [execCreditReturn, sendsOn_of_ne hp, hr, hl, hf, done]

/-- Port `p` with credits added that fit. -/
def credited (p : PortId) (h d : Nat) (s : State) : State :=
  setPort s p { portAt s p with hdr := (portAt s p).hdr + BitVec.ofNat 16 h, dat := (portAt s p).dat + BitVec.ofNat 16 d }

/-- Credits that fit are added (R38). -/
theorem creditIn_fits {h d : Nat} (hh : (portAt s p).hdr.toNat + h ≤ 65535) (hd : (portAt s p).dat.toNat + d ≤ 65535) :
    creditIn p h d s = pumpAll p (credited p h d s) := by
  have : ¬((portAt s p).hdr.toNat + h > 65535 ∨ (portAt s p).dat.toNat + d > 65535) := by omega
  simp only [creditIn, creditAdd, if_pos hh, if_pos hd, if_neg this]; rfl

/-- Credits past 65,535 are a TAG_FAULT (R40). -/
theorem creditIn_past {h d : Nat} (hx : 65535 < (portAt s p).hdr.toNat + h ∨ 65535 < (portAt s p).dat.toNat + d) :
    ∃ y, creditIn p h d s = pumpAll p y ∧ y.flt.getLsbD 0x13 = true := by
  simp only [creditIn, if_pos hx]
  exact ⟨_, rfl, tagFault_bit ..⟩

end Sys2Proof.Machine
end

section
/-! SUPPORT. A link that rises (R39, R49, R360). -/

namespace Sys2Proof.Machine

variable {s : State} {p : PortId} {x : Port} {k : Nat}

/-- A link whose other side is down gets no credits. -/
theorem portUp_down (h : x.outUp = false) : portUp k x = x := by simp [portUp, h]

/-- A link up on both sides has the block's credits (R39). -/
theorem portUp_up (ho : x.outUp = true) (hi : x.inUp = true) : portUp k x =
    { x with everUp := true, discard := false, rxHdr := (rxCredits k).1, rxDat := (rxCredits k).2, owed := 0 } := by
  simp [portUp, ho, hi]

/-- Both sides of a link are up as they were. -/
theorem portUp_sides : (portUp k x).outUp = x.outUp ∧ (portUp k x).inUp = x.inUp := by
  unfold portUp; split <;> exact ⟨rfl, rfl⟩

/-- The credits the block gives at each port (R39). -/
theorem rxCredits_portIx (p : PortId) : rxCredits (portIx p) =
    match p with | .fp _ => (64, 1024) | .hbp => (64, 64) | .pp => (256, 2048) | .cp => (8, 8) | .ccp => (128, 128) | .mp _ => (0, 0) := by
  cases p with
  | mp n => simp [rxCredits, portIx, n.isLt]
  | fp n =>
    have h : 32 + n.toNat < 64 := by omega
    simp [rxCredits, portIx, h]
  | hbp | pp | cp | ccp => rfl

/-- The PLL starts in the aon-only state (R360). -/
def aonWoken (s : State) : State := { s with sys := { s.sys with aonWaking := s.sys.aonWaking || s.sys.aons } }

/-- Out of the aon-only state nothing starts. -/
theorem aonWoken_eq (s : State) : aonWoken s = if s.sys.aons then { s with sys := { s.sys with aonWaking := true } } else s := by
  unfold aonWoken; split
  · next h => rw [h, Bool.or_true]
  · next h => rw [eq_false_of_ne_true h, Bool.or_false]

/-- What the rise of port `p` leaves: the link is open if both sides are up, and the aon-only state ends (R49, R360). -/
def risen (p : PortId) (s : State) : State := aonWoken (setPort s p (portUp (portIx p) { portAt s p with inUp := true }))

/-- The port that rose. -/
theorem portAt_risen_same (p : PortId) (s : State) : portAt (risen p s) p = portUp (portIx p) { portAt s p with inUp := true } :=
  portAt_setPort_same

/-- The link of HBP after a rise is up if it is HBP that rose and its other side is up. -/
theorem linkOk_risen : linkOk (risen p s) p = (portAt s p).outUp := by
  simp [linkOk, portAt_risen_same, portUp_sides]

/-- LINKUP_RISE, where the link was down: HBP's held interrupt messages go out if it is open now (R288). -/
theorem does_linkupRise (h : (portAt s p).inUp = false) : Does (.linkupRise p) s
    (if p = .hbp ∧ (portAt s p).outUp = true ∧ fclkOn s = true then linkOpened (risen p s) else risen p s) := by
  have hc : (p = .hbp ∧ linkOk (risen p s) .hbp = true ∧ fclkOn (risen p s) = true) ↔
      (p = .hbp ∧ (portAt s p).outUp = true ∧ fclkOn s = true) :=
    and_congr_right fun hp => by subst hp; rw [linkOk_risen]; rfl
  show execLinkupRise p s = _
  rw [execLinkupRise, if_neg (by simp [h])]
  dsimp only
  rw [← aonWoken_eq, ← risen]
  simp only [hc, done]

end Sys2Proof.Machine
end

section
/-! SUPPORT. A link that falls (R47, R353, R390). -/

namespace Sys2Proof.Machine

variable {s : State} {p : PortId}

/-- What stopping a transfer and ending a ring's command can change: channels, churns, the snapshot's transfer, rings, faults and marks;
no fault is cleared. -/
def Halts (s t : State) : Prop :=
  t = { s with
    hub := t.hub, churns := t.churns, snap := { s.snap with x := t.snap.x }, rings := t.rings, sep := t.sep, step := t.step, flt := t.flt, flts := t.flts } ∧
  ∀ k, s.flt.getLsbD k = true → t.flt.getLsbD k = true

theorem Halts.refl (s : State) : Halts s s := ⟨rfl, fun _ h => h⟩

theorem Halts.trans {a b c : State} (h : Halts a b) (k : Halts b c) : Halts a c := by
  obtain ⟨h1, h2⟩ := h; obtain ⟨k1, k2⟩ := k
  refine ⟨?_, fun i hi => k2 i (h2 i hi)⟩
  rw [k1, h1]

/-- A change of one channel. -/
theorem modChan_halts (i : ChanId) (f : Chan → Chan) (s : State) : Halts s (modChan i f s) := by
  cases i with
  | hub c => exact ⟨rfl, fun _ h => h⟩
  | pail n c => exact ⟨rfl, fun _ h => h⟩

/-- A change of one transfer's progress. -/
theorem modX_halts (c : Nat) (f : Xfer → Xfer) (s : State) : Halts s (modX c f s) := by
  unfold modX; split
  · exact modChan_halts ..
  · exact ⟨rfl, fun _ h => h⟩

/-- A raise. -/
theorem raise_halts (c : Nat) (w i : Word) (s : State) : Halts s (raise c w i s) :=
  ⟨by rw [raise_frame], fun _ h => raise_keeps w i s h⟩

/-- The mark of a channel's fault in ASTAT. -/
theorem noteFault_halts (i : ChanId) (s : State) : Halts s (noteFault i s) := by
  unfold noteFault; split
  · exact ⟨rfl, fun _ h => h⟩
  · exact Halts.refl s

/-- The stop of a transfer. -/
theorem xferStop_halts (c err : Nat) (dir : Bool) (addr : Nat) (s : State) : Halts s (xferStop c err dir addr s) := by
  simp only [xferStop]
  split
  · split
    · exact ((modX_halts ..).trans (modChan_halts ..)).trans (noteFault_halts ..)
    · exact modX_halts ..
  · exact modX_halts ..

/-- The failure of a transfer. -/
theorem xferFail_halts (c err code : Nat) (dir : Bool) (addr info : Nat) (s : State) : Halts s (xferFail c err code dir addr info s) := by
  unfold xferFail; split
  · exact xferStop_halts ..
  · exact (raise_halts ..).trans (xferStop_halts ..)

/-- A message of a channel that is lost with its link. -/
theorem moverLost_halts (s : State) (y : TxReq) : Halts s (moverLost s y) := by
  unfold moverLost; split
  · split
    · exact Halts.refl s
    · exact (modX_halts ..).trans (xferFail_halts ..)
  · exact Halts.refl s

/-- What follows once a message is lost. -/
theorem issuedTx_halts (c : Option Nat) (s : State) : Halts s (issuedTx c s) := by
  unfold issuedTx; split
  · split
    · exact ⟨rfl, fun _ h => h⟩
    · exact Halts.refl s
  · exact Halts.refl s

/-- All messages that are lost with a link. -/
theorem lostAll_halts (l : List TxReq) (s : State) : Halts s (l.foldl (fun s y => issuedTx y.src (moverLost s y)) s) := by
  induction l generalizing s with
  | nil => exact Halts.refl s
  | cons y r ih => exact ((moverLost_halts s y).trans (issuedTx_halts _ _)).trans (ih _)

/-- What the fall of a link takes at once: its requests, which complete inside the block, its tags, its credits and what waits to be
sent (R47). -/
def linkGone (p : PortId) (s : State) : State :=
  setPort { s with
    dead := s.dead ++ s.inflight.filter (fun f => f.port == p) ++ waitingReqs p s
    inflight := s.inflight.filter fun f => f.port != p
    late := s.late.filter fun l => l.1 != p
    txq := s.txq.filter fun y => y.m.port != p
    wins := s.wins.map fun w => if w.port == p then { w with posted := true } else w
    units := if p = .pp then [] else s.units } p { outUp := (portAt s p).outUp, everUp := (portAt s p).everUp }

/-- A port's bus fault. -/
theorem raisePort_halts (p : PortId) (w : Word) (s : State) : Halts s (raisePort p w s) := by
  unfold raisePort; split
  · exact raise_halts ..
  · exact Halts.refl s

/-- A port's bus fault shows in FLT_STAT. -/
theorem raisePort_bit {c : Nat} (hc : busFault p = some c) (w : Word) (s : State) : (raisePort p w s).flt.getLsbD c = true := by
  have hlt : c < 24 := by
    cases p <;> simp only [busFault, Option.some.injEq, reduceCtorEq] at hc <;> omega
  simp only [raisePort, hc]; exact raise_bit _ _ s hlt

/-- The fall of a link, but for a restore in progress: what it takes at once, the port's bus fault, the channels that halt, and the
owners of the requests that completed. -/
theorem linkLost_spec (hr : p = .hbp → s.snap.rbusy = false) : ∃ y, linkLost p s = (if live s then finish y else y) ∧
    Halts (tickFree (linkGone p s)) y ∧ ∀ c, busFault p = some c → y.flt.getLsbD c = true := by
  let w := s.txq.filter fun y => y.m.port == p
  let z := raisePort p (Config.freeWord (linkGone p s).freeCtr) (tickFree (linkGone p s))
  let y := w.foldl (fun s y => issuedTx y.src (moverLost s y)) z
  have hz : Halts z y := lostAll_halts w z
  have hy : Halts (tickFree (linkGone p s)) y := (raisePort_halts ..).trans hz
  have hn : ¬(p = .hbp ∧ y.snap.rbusy = true) := fun ⟨hp, hb⟩ => by
    rw [hy.1] at hb; exact Bool.false_ne_true ((hr hp).symm.trans hb)
  have hl : live y = live s := by rw [hy.1]; rfl
  refine ⟨y, ?_, hy, fun c hc => hz.2 c (raisePort_bit hc _ _)⟩
  rw [← hl]
  exact congrArg (fun t => if live t then finish t else t) (if_neg hn)

/-- LINKUP_FALL of a link that was open, while fclk runs. -/
theorem does_linkupFall (hi : (portAt s p).inUp = true) (ho : (portAt s p).outUp = true) (hf : fclkOn s = true) :
    Does (.linkupFall p) s (linkLost p (bridgeLost p s)) := by
  show execLinkupFall p s = _
  simp [execLinkupFall, hi, ho, hf, done]

/-- LINKUP_FALL of a link that was open, while fclk is stopped: it is noted (R353). -/
theorem does_linkupFall_stopped (hi : (portAt s p).inUp = true) (ho : (portAt s p).outUp = true) (hf : fclkOn s = false) :
    Does (.linkupFall p) s (bridgeLost p (setPort s p { portAt s p with inUp := false, fell := true })) := by
  show execLinkupFall p s = _
  simp [execLinkupFall, hi, ho, hf, done]

end Sys2Proof.Machine
end

section
/-! Responses, time-outs, credits and links. -/

namespace Sys2Proof.Machine

/-- Settles O49: each clause is the rule of its command above. -/
theorem responsesAndLinks : Obligations.ResponsesAndLinks := by
  intro s p tag stat data h d
  refine ⟨fun hl hk hr => ⟨fun hn ht => ?stray, fun hn ht => ?late, fun f r hf => ?owner⟩, mpResponse_linkDown,
    fun hl hn => ?noTimer, fun f r hl ht hf => ?timer, does_creditReturn_stopped,
    fun hr hk hp hf => ⟨fun hh hd => ?credits, fun hx => ?past⟩,
    fun hi => if_pos hi, fun hi => ?rise, fun hi => ?fallDown, fun hi ho => ?fallClosed, does_linkupFall_stopped,
    fun hi ho hf hb => ?fall⟩
  case stray =>
    exact ⟨_, responseIn_stray hn ht ▸ does_mpResponse hl hk hr, tagFault_bit .., tagFault_faults ..⟩
  case late => exact responseIn_late hn ht ▸ does_mpResponse hl hk hr
  case owner =>
    obtain ⟨z, e, he, hd⟩ := responseIn_owner (stat := stat) (data := data) hf
    have hdo := does_mpResponse (tag := tag) (stat := stat) (data := data) hl hk hr
    rw [he] at hdo
    refine ⟨z, e, hdo, hd, fun hg hdead hidle => ?_⟩
    rwa [answered_gone_settled hg (by exact hdead) (by exact hidle)] at hdo
  case noTimer =>
    have hdo := does_responseTimeout (p := p) (tag := tag) hl
    rwa [timeoutIn_none hn] at hdo
  case timer =>
    have hdo := does_responseTimeout (p := p) (tag := tag) hl
    rw [timeoutIn_some ht hf] at hdo
    refine ⟨hdo, fun hg hdead hidle => ?_⟩
    rwa [answered_gone_settled hg (by exact hdead) (by exact hidle)] at hdo
  case credits =>
    have hdo := does_creditReturn (h := h) (d := d) hr hk hp hf
    rw [creditIn_fits hh hd] at hdo
    refine ⟨credited p h.toNat d.toNat s, hdo, ?_, ?_, rfl, fun hidle => ?_⟩
    · rw [credited, portAt_setPort_same]; exact toNat_add_ofNat16 hh
    · rw [credited, portAt_setPort_same]; exact toNat_add_ofNat16 hd
    · rwa [pumpAll_idle (by exact hidle)] at hdo
  case past =>
    obtain ⟨y, hy, hb⟩ := creditIn_past hx
    exact ⟨y, hy ▸ does_creditReturn hr hk hp hf, hb⟩
  case rise =>
    refine ⟨risen p s, does_linkupRise hi, rfl, fun q hq => portAt_setPort_ne hq, fun ho => ?_, fun ho => ?_⟩
    · exact (portAt_risen_same p s).trans (portUp_down (by exact ho))
    · rw [portAt_risen_same, portUp_up (by exact ho) rfl]
      exact ⟨rfl, rfl, rfl, rxCredits_portIx p⟩
  case fallDown => exact if_pos (by simpa using hi)
  case fallClosed =>
    show execLinkupFall p s = _
    simp [execLinkupFall, hi, ho]
  case fall =>
    obtain ⟨y, he, ⟨hy, -⟩, hbit⟩ := linkLost_spec (p := p) (s := bridgeLost p s) hb
    have hport : portAt y p = { outUp := (portAt s p).outUp, everUp := (portAt s p).everUp } := by
      rw [hy]; exact portAt_setPort_same
    have hin : y.inflight = s.inflight.filter fun f => f.port != p := by rw [hy]; rfl
    have hdead : y.dead = s.dead ++ s.inflight.filter (fun f => f.port == p) ++ waitingReqs p (bridgeLost p s) := by rw [hy]; rfl
    have hlate : y.late = s.late.filter fun l => l.1 != p := by rw [hy]; rfl
    have htxq : y.txq = s.txq.filter fun t => t.m.port != p := by rw [hy]; rfl
    refine ⟨y, he ▸ does_linkupFall hi ho hf, ho ▸ hport, by rw [hy]; rfl, fun f hf => ?_, fun f hf hp => ?_, fun l hl => ?_,
      fun t ht => ?_, hbit⟩
    · rw [hin] at hf; simpa using (List.mem_filter.mp hf).2
    · rw [hdead]
      exact List.mem_append_left _ (List.mem_append_right _ (List.mem_filter.mpr ⟨hf, by simpa using hp⟩))
    · rw [hlate] at hl; simpa using (List.mem_filter.mp hl).2
    · rw [htxq] at ht; simpa using (List.mem_filter.mp ht).2

end Sys2Proof.Machine
end

section
/-! SUPPORT. How requests enter at FPn_INB and PP_TREQ (R26, R33, R42, R356). -/

namespace Sys2Proof.Machine

variable {s : State} {n : BitVec 5} {c : Instr} {r : Req} {f : State → State} {d : Nat}

/-- A request on FPn_INB whose churn is ACTIVE has its effect. -/
theorem does_fabric (he : exec c s = fabricGate n c r f s) (hc : cmdPort c = some (.fp n, d)) (ha : arrives s (.fp n) d)
    (hp : (churnAt s n.toNat).pwr = .active) : Does c s (f s) := by
  rw [Does, he, fabricGate, targetGate_arrives hc ha, if_pos (by simpa using hp)]; rfl

/-- Another one waits in the bridge, and its churn wakes (R26, R356). -/
theorem fabricGate_waits (hc : cmdPort c = some (.fp n, d)) (ha : arrives s (.fp n) d) (hp : (churnAt s n.toNat).pwr ≠ .active) :
    fabricGate n c r f s = done (hold c (wake n.toNat s)) := by
  rw [fabricGate, targetGate_arrives hc ha, if_neg (by simpa using hp)]

/-- A request on FPn_INB that may not enter is turned away (R40, R48, R360). -/
theorem turnedAway_of_fabricGate (he : exec c s = fabricGate n c r f s) (hc : cmdPort c = some (.fp n, d)) : turnedAway s (.fp n) d c :=
  turnedAway_of_targetGate hc fun _ => he

/-- SIG on FPn_INB. -/
theorem exec_sig_fp : exec (.sig (.fp n) r) s = fabricGate n (.sig (.fp n) r) r (sigIn (.fp n) (.sig (.fp n) r) r) s := rfl

/-- INBOUND_WRITE. -/
theorem exec_inboundWrite : exec (.inboundWrite n r) s = fabricGate n (.inboundWrite n r) r (inboundIn n r) s := rfl

/-- SIG on PP_TREQ. -/
theorem exec_sig_pp : exec (.sig .pp r) s = targetGate .pp (.sig .pp r) r (ppIn (.sig .pp r) r) s := rfl

/-- PP_TARGET_REQUEST. -/
theorem exec_ppTargetRequest : exec (.ppTargetRequest r) s = targetGate .pp (.ppTargetRequest r) r (ppIn (.ppTargetRequest r) r) s := rfl

/-- SEAL_RECORD. -/
theorem exec_sealRecord : exec (.sealRecord r) s = targetGate .pp (.sealRecord r) r (ppIn (.sealRecord r) r) s := rfl

/-- SEAL_WINDOW_RD. -/
theorem exec_sealWindowRd : exec (.sealWindowRd r) s = targetGate .pp (.sealWindowRd r) r (ppIn (.sealWindowRd r) r) s := rfl

/-- A request on PP_TREQ that arrives. -/
theorem does_pp (he : exec c s = targetGate .pp c r (ppIn c r) s) (hc : cmdPort c = some (.pp, reqCredits r))
    (ha : arrives s .pp (reqCredits r)) : Does c s (ppIn c r s) := by
  rw [Does, he, targetGate_arrives hc ha]; rfl

/-- A SIG takes one data credit (R38). -/
theorem reqCredits_sig (h : r.opc = 4) : reqCredits r = 1 := by simp [reqCredits, h]

/-- A read takes no data credit (R38). -/
theorem reqCredits_read (h : r.opc = 1) : reqCredits r = 0 := by simp [reqCredits, h]

end Sys2Proof.Machine
end

section
/-! SUPPORT. SIG: a count for a semaphore pair (R254). -/

namespace Sys2Proof.Machine

variable {s : State} {n : BitVec 5} {c : Instr} {r : Req}

/-- The header and the data of a SIG are well formed (R28, R42, R254). -/
def sigSound (r : Req) : Prop :=
  r.opc = 4 ∧ r.oc ≠ 3 ∧ r.beOk = true ∧ r.data.length = 8 ∧ r.len = 7 ∧ allZero (r.data.drop 2) = true

/-- The check of a SIG passes for a well-formed one. -/
theorem sigSound.check (h : sigSound r) :
    (r.opc != 4 || r.oc == 3 || !r.beOk || r.data.length != 8 || r.len != 7 || !allZero (r.data.drop 2)) = false := by
  obtain ⟨h1, h2, h3, h4, h5, h6⟩ := h
  simp only [h1, beq_eq_false_iff_ne.mpr h2, h3, h4, h5, h6, bne_self_eq_false, Bool.not_true, Bool.or_self]

/-- A SIG at FPn_INB adds to the pair of its context, if that is OPEN. -/
theorem sigIn_fp (ho : ordered s (.fp n) 0 r.oc = false) (hs : sigSound r) (h63 : fld r.addr 63 46 = 0) (h31 : fld r.addr 31 1 = 0) :
    sigIn (.fp n) c r s = if (ctxAt s (fld r.addr 45 32)).st = .opened then
        semAdd (ctxAt s (fld r.addr 45 32)).sem (bit r.addr 0) (ofBytes (r.data.take 2)) (portRec (.fp n)) s
      else tagFault (.fp n) (hdrHi r) s := by
  simp only [sigIn, ho, hs.check, h63, h31, bne_self_eq_false, Bool.false_or, Bool.false_eq_true, if_false, bne_iff_ne, ne_eq, ite_not]

/-- A SIG at PP_TREQ adds to the pair it names. -/
theorem sigIn_pp (ho : ordered s .pp r.chip r.oc = false) (hs : sigSound r) (h63 : fld r.addr 63 48 = 0) (h47 : fld r.addr 47 44 = 15)
    (h43 : fld r.addr 43 13 = 0) :
    sigIn .pp c r s = semAdd (fld r.addr 12 1) (bit r.addr 0) (ofBytes (r.data.take 2)) (portRec .pp) s := by
  simp only [sigIn, ho, hs.check, h63, h47, h43, bne_self_eq_false, Bool.false_or, Bool.false_eq_true, if_false]

/-- A SIG at PP_TREQ outside the addresses of pairs is a TAG_FAULT. -/
theorem sigIn_pp_elsewhere (ho : ordered s .pp r.chip r.oc = false) (h47 : fld r.addr 47 44 ≠ 15) :
    sigIn .pp c r s = tagFault .pp (hdrHi r) s := by
  simp only [sigIn, ho, bne_iff_ne.mpr h47, Bool.or_true, Bool.true_or, Bool.false_eq_true, if_false, if_true]

/-- A SIG at PP_TREQ is performed as one (R254). -/
theorem ppIn_sig (h : r.opc = 4) : ppIn c r s = sigIn .pp c r s := if_pos (by rw [h]; rfl)

end Sys2Proof.Machine
end

section
/-! SUPPORT. A write on FPn_INB, case by case (R31, R42, R245, R246). -/

namespace Sys2Proof.Machine

variable {s : State} {n : BitVec 5} {r : Req} {o : RunOp}

/-- Malformed, or outside the addresses of contexts, it is a TAG_FAULT. -/
theorem inboundIn_malformed (h : malformed [3] r = true ∨ fld r.addr 63 46 ≠ 0) : inboundIn n r s = tagFault (.fp n) (hdrHi r) s :=
  if_pos (by simpa using h)

/-- On a context that is not an OPEN IN context, or past the churn's share, it is refused (R246). -/
theorem inboundIn_refused (ho : ordered s (.fp n) 0 r.oc = false) (hm : malformed [3] r = false) (h63 : fld r.addr 63 46 = 0)
    (hx : (ctxAt s (fld r.addr 45 32)).st ≠ .opened ∨ (ctxAt s (fld r.addr 45 32)).kind ≠ 0 ∨
      ctxShare s n.toNat (fld r.addr 45 32) < fld r.addr 31 0 + reqLen r) :
    inboundIn n r s = inRefuse n.toNat (fld r.addr 45 32) r.addr s := by
  have hb : ((ctxAt s (fld r.addr 45 32)).st != .opened || (ctxAt s (fld r.addr 45 32)).kind != 0 ||
      decide (fld r.addr 31 0 + reqLen r > ctxShare s n.toNat (fld r.addr 45 32))) = true := by simpa [or_assoc] using hx
  simp only [inboundIn, hm, h63, ho, hb, bne_self_eq_false, Bool.or_self, Bool.false_eq_true, if_false, if_true]

/-- A refused write is a PAGE_FAULT, and STRM_FLT names it (R246). -/
theorem inRefuse_effect (n i : Nat) (a : Word) (s : State) :
    (inRefuse n i a s).flt.getLsbD 4 = true ∧ (inRefuse n i a s).churns = s.churns ∧
      (inRefuse n i a s).strmFlt = strmWord i n 4 (fld a 31 0 / 64) := by
  refine ⟨raise_bit _ _ _ (by decide), ?_⟩
  rw [inRefuse, raise_plain _ _ _ (by decide) (by decide)]; exact ⟨rfl, rfl⟩

/-- A well-formed write within the churn's share of an OPEN IN context that waits for none before it. -/
def writeInTurn (s : State) (n : BitVec 5) (r : Req) : Prop :=
  ordered s (.fp n) 0 r.oc = false ∧ malformed [3] r = false ∧ fld r.addr 63 46 = 0 ∧ (ctxAt s (fld r.addr 45 32)).st = .opened ∧
    (ctxAt s (fld r.addr 45 32)).kind = 0 ∧ fld r.addr 31 0 + reqLen r ≤ ctxShare s n.toNat (fld r.addr 45 32) ∧
    waitsBefore s n.toNat (fld r.addr 45 32) = false

/-- The check of R246 passes for such a write. -/
theorem writeInTurn.check (h : writeInTurn s n r) : ((ctxAt s (fld r.addr 45 32)).st != .opened ||
    (ctxAt s (fld r.addr 45 32)).kind != 0 || decide (fld r.addr 31 0 + reqLen r > ctxShare s n.toNat (fld r.addr 45 32))) = false := by
  obtain ⟨-, -, -, hst, hk, hsh, -⟩ := h
  simp [hst, hk, hsh]

/-- Such a write waits for an op that takes it (R246). -/
theorem inboundIn_noTaker (h : writeInTurn s n r) (ht : takerOp s n.toNat (fld r.addr 45 32) = none) :
    inboundIn n r s = hold (.inboundWrite n r) s := by
  have hb := h.check
  obtain ⟨ho, hm, h63, -, -, -, hw⟩ := h
  simp only [inboundIn, hm, h63, ho, hb, hw, ht, bne_self_eq_false, Bool.or_self, Bool.false_eq_true, if_false]

/-- It must be the next bytes of the op that takes it, and waits for room there (R246, R261). -/
theorem inboundIn_taker (h : writeInTurn s n r) (ht : takerOp s n.toNat (fld r.addr 45 32) = some o) : inboundIn n r s =
    if fld r.addr 31 0 ≠ nxt o (fld r.addr 45 32) then tagFault (.fp n) (hdrHi r) s
    else if opFull o then hold (.inboundWrite n r) s
    else inAccept n.toNat (fld r.addr 45 32) o r.data s := by
  have hb := h.check
  obtain ⟨ho, hm, h63, -, -, -, hw⟩ := h
  simp only [inboundIn, hm, h63, ho, hb, hw, ht, bne_self_eq_false, Bool.or_self, Bool.false_eq_true, if_false]

end Sys2Proof.Machine
end

section
/-! SUPPORT. A request on PP_TREQ, by the cipher's mode and by its address (R334, R338, R339). -/

namespace Sys2Proof.Machine

variable {s : State} {c : Instr} {r : Req}

/-- A well-formed request is no SIG. -/
theorem opc_ne_sig (h : malformed [1, 2, 3] r = false) : (r.opc == 4) = false := by
  rw [beq_eq_false_iff_ne]
  intro h4
  simp [malformed, h4] at h

/-- A clear request goes to memory. -/
theorem ppIn_clear (ho : ordered s .pp r.chip r.oc = false) (hm : malformed [1, 2, 3] r = false) (hc : cryptMode s ≠ 2) :
    ppIn c r s = memRequest .pp r.chip r.addr.toNat r s := by
  simp only [ppIn, opc_ne_sig hm, ho, hm, beq_eq_false_iff_ne.mpr hc, Bool.and_false, Bool.false_and, Bool.false_eq_true, if_false]

/-- Under ALL_OFF_PACKAGE a request in the seal window goes to the sealed units. -/
theorem ppIn_window (ho : ofUnit s r = true ∨ ordered s .pp r.chip r.oc = false) (hm : malformed [1, 2, 3] { r with addr := 0 } = false)
    (hc : cryptMode s = 2) (hw : isSealWin r.addr = true) : ppIn c r s = ppSealed c r s := by
  have ho : (!ofUnit s r && ordered s .pp r.chip r.oc) = false := by rcases ho with h | h <;> simp [h]
  have hs : (r.opc == 4) = false := opc_ne_sig (r := { r with addr := 0 }) hm
  simp only [ppIn, hs, ho, hm, hc, hw, beq_self_eq_true, Bool.and_self, Bool.false_eq_true, if_false, if_true]

/-- So does one elsewhere. -/
theorem ppIn_data (ho : ofUnit s r = true ∨ ordered s .pp r.chip r.oc = false) (hm : malformed [1, 2, 3] r = false)
    (hc : cryptMode s = 2) (hw : isSealWin r.addr = false) : ppIn c r s = ppSealed c r s := by
  have ho : (!ofUnit s r && ordered s .pp r.chip r.oc) = false := by rcases ho with h | h <;> simp [h]
  simp only [ppIn, opc_ne_sig hm, ho, hm, hc, hw, beq_self_eq_true, Bool.and_false, Bool.false_eq_true, if_false, if_true]

/-- A request that lies in device memory is performed there. -/
theorem memRequest_inside {p : PortId} {chip : BitVec 17} {a : Nat} (ha : a + reqLen r ≤ dpaEnd) :
    memRequest p chip a r s = winStart
      { id := 0, port := p, chip := chip, oc := r.oc, tag := r.tag, rd := r.opc == 1, posted := !nonPosted r.opc } a (reqLen r) r.data s := by
  simp [memRequest, inMemory, ha]

/-- A read-back tells whether a unit failed (R339). -/
theorem ppSealed_readBack (h : readBack r = true) (ha : isSealWin r.addr = true ∨ r.addr.toNat + 1 ≤ dpaEnd) : ppSealed c r s =
    if s.peerFail.contains r.chip then answer .pp true r.tag 2 [] { s with peerFail := s.peerFail.filter fun x => x != r.chip }
    else answer .pp true r.tag 0 [0] s :=
  if_pos (by simpa [h, inMemory] using ha)

/-- A seal record waits for the data of its unit, or resolves it (R338). -/
theorem ppSealed_record (ho : r.opc = 3) (hw : isSealWin r.addr = true) (hl : r.len.toNat = 63) :
    ppSealed c r s = if recordWaits s r then hold c s else sealRecordIn r s := by
  have hb : readBack r = false := by simp [readBack, ho]
  have h64 : reqLen r = 64 := by rw [reqLen, hl]
  have hr : (r.opc == 1) = false := by rw [ho]; rfl
  have h3 : (r.opc == 3) = true := by rw [ho]; rfl
  simp only [ppSealed, hb, hw, h64, hr, h3, bne_self_eq_false, Bool.false_and, Bool.false_eq_true, if_false, if_true]

/-- A read of the seal window (R339). -/
theorem ppSealed_windowRd (ho : r.opc = 1) (hw : isSealWin r.addr = true) (hl : r.len.toNat = 63) :
    ppSealed c r s = sealWinRd c r s := by
  have h64 : reqLen r = 64 := by rw [reqLen, hl]
  have hb : readBack r = false := by simp [readBack, h64]
  have hr : (r.opc == 1) = true := by rw [ho]; rfl
  simp only [ppSealed, hb, hw, h64, hr, bne_self_eq_false, Bool.false_and, Bool.false_eq_true, if_false, if_true]

/-- A write of a whole block is data of a unit (R338). -/
theorem ppSealed_data (ho : r.opc = 2 ∨ r.opc = 3) (hw : isSealWin r.addr = false) (hl : r.len.toNat = 511) (h512 : r.addr.toNat % 512 = 0)
    (ha : r.addr.toNat + 512 ≤ dpaEnd) : ppSealed c r s = unitData c r s := by
  have hn : reqLen r = 512 := by rw [reqLen, hl]
  have hr : (r.opc == 1) = false := by rcases ho with h | h <;> rw [h] <;> rfl
  have hb : readBack r = false := by rw [readBack, hr]; rfl
  have hi : inMemory r.addr.toNat 512 = true := decide_eq_true ha
  simp only [ppSealed, hb, hw, hr, hi, hn, h512, beq_self_eq_true, Bool.and_self, Bool.not_true, Bool.false_and, Bool.false_eq_true, if_false,
    if_true]

end Sys2Proof.Machine
end

section
/-! SUPPORT. Sealed units of peers: their data, their records and their copies (R338 to R340). -/

namespace Sys2Proof.Machine

variable {s : State} {c : Instr} {r : Req} {u : HeldUnit}

/-- A cipher failure raises its fault. -/
theorem ppCrypt_bit {k code slot a : Nat} {i : Option Nat} (h : code < 24) : (ppCrypt k code slot a i s).flt.getLsbD code = true :=
  raise_bit _ _ _ h

/-- A note of the cipher changes its registers alone. -/
theorem cryptNote_frame (k slot a : Nat) (s : State) : ∃ e v, cryptNote k slot a s = { s with cryptErr := e, cryptEvt := v } := by
  unfold cryptNote; split <;> exact ⟨_, _, rfl⟩

/-- A cipher failure changes the cipher's and the fault registers alone. -/
theorem ppCrypt_frame {code : Nat} (h8 : code ≠ 8) (h12 : code ≠ 12) (k slot a : Nat) (i : Option Nat) (s : State) :
    ∃ e v f fs, ppCrypt k code slot a i s = { s with cryptErr := e, cryptEvt := v, flt := f, flts := fs } := by
  obtain ⟨e, v, h⟩ := cryptNote_frame k slot a s
  unfold ppCrypt
  rw [h]
  exact ⟨e, v, _, _, raise_plain _ _ _ h8 h12⟩

/-- A chip whose unit failed is noted. -/
theorem mem_failChip (chip : BitVec 17) (s : State) : chip ∈ (failChip chip s).peerFail := by
  unfold failChip; split
  · next h => simpa using h
  · exact List.mem_append_right _ (List.mem_singleton.mpr rfl)

/-- The note of a chip raises no fault and takes no unit. -/
theorem failChip_flt_units (chip : BitVec 17) (s : State) : (failChip chip s).flt = s.flt ∧ (failChip chip s).units = s.units := by
  unfold failChip; split <;> exact ⟨rfl, rfl⟩

/-- What a unit of a seal record that does not open leaves, but for the answers to its writes: the unit given back, the cipher's failure and
the chip noted (R339, R340). -/
def unitFailed (r : Req) (u : HeldUnit) (k code : Nat) (s : State) : State :=
  failChip r.chip (ppCrypt k code (fld r.addr 38 36) ((r.addr.setWidth 36).toNat * 4096) none (freeUnit u s))

/-- A unit that does not open: its fault, its chip, and its place are as R338 to R340 say. -/
theorem unitFailed_effect {k code : Nat} (h : code < 24) (h8 : code ≠ 8) (h12 : code ≠ 12) (r : Req) (u : HeldUnit) (s : State) :
    (unitFailed r u k code s).flt.getLsbD code = true ∧ r.chip ∈ (unitFailed r u k code s).peerFail ∧
      u ∉ (unitFailed r u k code s).units := by
  obtain ⟨hf, hu⟩ := failChip_flt_units r.chip
    (ppCrypt k code (fld r.addr 38 36) ((r.addr.setWidth 36).toNat * 4096) none (freeUnit u s))
  refine ⟨?_, mem_failChip .., ?_⟩
  · rw [unitFailed, hf]; exact ppCrypt_bit h
  · obtain ⟨e, v, f, fs, hc⟩ := ppCrypt_frame h8 h12 k (fld r.addr 38 36) ((r.addr.setWidth 36).toNat * 4096) none (freeUnit u s)
    rw [unitFailed, hu, hc]
    show u ∉ s.units.filter fun x => x != u
    simp

/-- The held unit that a seal record is for, once its data are whole. -/
def recordUnit (s : State) (r : Req) : Option HeldUnit :=
  s.units.find? fun u => u.chip == r.chip && u.unit == r.addr.setWidth 36 && u.data.length == 8

/-- What the record of a unit opens to, with the key of its slot (R337, R338). -/
def recordOpen (s : State) (r : Req) (u : HeldUnit) : Option (List Byte) :=
  gcmOpen (keyBytes (keyAt s (fld r.addr 38 36))) ((r.data.drop 8).take 12)
    (aadOf ((r.addr.setWidth 36).toNat * 4096) (fld r.addr 38 36) true (chipId s).toNat) (u.data.flatMap (·.2)) ((r.data.drop 24).take 16)

/-- A record without its unit is a cipher failure. -/
theorem sealRecordIn_none (h : recordUnit s r = none) :
    sealRecordIn r s = ppCrypt 5 3 (fld r.addr 38 36) ((r.addr.setWidth 36).toNat * 4096) none s := by
  unfold recordUnit at h
  simp only [sealRecordIn, h]

/-- A record without a key discards its unit. -/
theorem sealRecordIn_noKey (h : recordUnit s r = some u) (hk : (keyAt s (fld r.addr 38 36)).valid = false) :
    sealRecordIn r s = answerUnit u.wrs 2 (unitFailed r u 1 0x12 s) := by
  unfold recordUnit at h
  simp only [sealRecordIn, h]
  exact if_pos (by rw [Bool.not_eq_true']; exact hk)

/-- A record whose tag does not match discards its unit. -/
theorem sealRecordIn_mismatch (h : recordUnit s r = some u) (hk : (keyAt s (fld r.addr 38 36)).valid = true) (ho : recordOpen s r u = none) :
    sealRecordIn r s = answerUnit u.wrs 2 (unitFailed r u 3 3 s) := by
  unfold recordUnit at h
  have ho' : recordOpen (freeUnit u s) r u = none := ho
  unfold recordOpen at ho'
  have hk' : (!(keyAt (freeUnit u s) (fld r.addr 38 36)).valid) = false := by rw [Bool.not_eq_false']; exact hk
  simp only [sealRecordIn, h, hk', ho', Bool.false_eq_true, if_false, unitFailed]

/-- A record that opens its unit writes it. -/
theorem sealRecordIn_opens {pt : List Byte} (h : recordUnit s r = some u) (hk : (keyAt s (fld r.addr 38 36)).valid = true)
    (ho : recordOpen s r u = some pt) : sealRecordIn r s =
      winStart { id := 0, port := .pp, chip := r.chip, oc := r.oc, posted := true, fin := .unit u.wrs } ((r.addr.setWidth 36).toNat * 4096) 4096
        pt (freeUnit u s) := by
  unfold recordUnit at h
  have ho' : recordOpen (freeUnit u s) r u = some pt := ho
  unfold recordOpen at ho'
  have hk' : (!(keyAt (freeUnit u s) (fld r.addr 38 36)).valid) = false := by rw [Bool.not_eq_false']; exact hk
  simp only [sealRecordIn, h, hk', ho', Bool.false_eq_true, if_false]

/-- What the first write of a unit leaves: the unit begun, and its data credits kept (R338). -/
def unitBegun (r : Req) (s : State) : State :=
  let t := { s with units := s.units ++ [{
    chip := r.chip, unit := BitVec.ofNat 36 (r.addr.toNat / 4096), data := mset [] [] (r.addr.toNat % 4096) r.data
    wrs := if r.opc = 2 then [r.tag] else [], ocs := [r.oc] }] }
  setPort t .pp { portAt t .pp with owed := (portAt t .pp).owed + 8 }

/-- The first write of a unit waits for room in the buffer and for the requests its class puts first, and else begins the unit. -/
theorem unitData_first (h : s.units.find? (fun u => u.chip == r.chip && u.unit == BitVec.ofNat 36 (r.addr.toNat / 4096)) = none) :
    unitData c r s = if s.units.length ≥ 32 || (waitingOc s .pp r.chip).any (mustWait r.oc) then hold c s else unitBegun r s := by
  have ht : (if r.opc == 2 then [r.tag] else []) = if r.opc = 2 then [r.tag] else [] := by simp only [beq_iff_eq]
  simp only [unitData, h, ht]; rfl

/-- A read of the seal window past device memory is refused. -/
theorem sealWinRd_outside (ho : r.opc = 1) (h : dpaEnd < (r.addr.setWidth 36).toNat * 4096 + 4096) :
    sealWinRd c r s = answer .pp true r.tag 1 [] s := by
  have hi : inMemory ((r.addr.setWidth 36).toNat * 4096) 4096 = false := decide_eq_false (Nat.not_le.mpr h)
  have hn : nonPosted r.opc = true := by rw [ho]; rfl
  simp only [sealWinRd, hi, Bool.not_false, if_true]
  rw [refuseReq_answered hn, ho]; rfl

/-- In device memory it waits for room, needs its key, and reads the unit in place of an older copy (R339). -/
theorem sealWinRd_inside (h : (r.addr.setWidth 36).toNat * 4096 + 4096 ≤ dpaEnd) : sealWinRd c r s =
    if copiesHeld s ≥ 32 then hold c s
    else if !(keyAt s (fld r.addr 38 36)).valid then
      answer .pp true r.tag 2 [] (ppCrypt 1 0x12 (fld r.addr 38 36) ((r.addr.setWidth 36).toNat * 4096) none s)
    else winStart { id := 0, port := .pp, chip := r.chip, oc := r.oc, tag := r.tag, rd := true, fin := .seal (BitVec.ofNat 3 (fld r.addr 38 36)) }
      ((r.addr.setWidth 36).toNat * 4096) 4096 []
      { s with copies := s.copies.filter fun x => !(x.chip == r.chip && x.unit == r.addr.setWidth 36) } := by
  have hi : inMemory ((r.addr.setWidth 36).toNat * 4096) 4096 = true := decide_eq_true h
  simp only [sealWinRd, hi, Bool.not_true, Bool.false_eq_true, if_false]

/-- A change of the first element that has a property keeps the length of a list. -/
theorem length_lmod {α : Type} (p : α → Bool) (f : α → α) (l : List α) : (lmod p f l).length = l.length := by
  induction l with
  | nil => rfl
  | cons x r ih => by_cases h : p x = true <;> simp [lmod, h, ih]

/-- The first element that has a property, after a change that keeps the property. -/
theorem find?_lmod {α : Type} {p : α → Bool} {f : α → α} {l : List α} {x : α} (h : l.find? p = some x)
    (hf : ∀ x, p x = true → p (f x) = true) : (lmod p f l).find? p = some (f x) := by
  induction l with
  | nil => simp at h
  | cons y r ih =>
    by_cases hy : p y = true
    · rw [List.find?_cons_of_pos hy, Option.some.injEq] at h
      subst h
      rw [lmod, if_pos hy, List.find?_cons_of_pos (hf y hy)]
    · rw [List.find?_cons_of_neg hy] at h
      rw [lmod, if_neg hy, List.find?_cons_of_neg hy, ih h]

/-- A sealed copy that expired: its data are given up (R339). -/
def copyExpired (chip : BitVec 17) (unit : BitVec 36) (s : State) : State :=
  { s with copies := lmod (fun x => x.chip == chip && x.unit == unit) (fun x => { x with expired := true, data := [] }) s.copies }

/-- The copy itself, after it expired. -/
theorem find?_copyExpired {chip : BitVec 17} {unit : BitVec 36} {x : SealCopy}
    (h : s.copies.find? (fun x => x.chip == chip && x.unit == unit) = some x) :
    (copyExpired chip unit s).copies.find? (fun x => x.chip == chip && x.unit == unit) = some { x with expired := true, data := [] } :=
  find?_lmod (f := fun (x : SealCopy) => { x with expired := true, data := [] }) h fun _ hy => hy

/-- SEALED_COPY_EXPIRE in a block that works. -/
theorem does_sealedCopyExpire {chip : BitVec 17} {unit : BitVec 36} (h : live s = true) :
    Does (.sealedCopyExpire chip unit) s (copyExpired chip unit s) := inner_live h (copyExpired chip unit)

end Sys2Proof.Machine
end

section
/-! SUPPORT. What a request on PP_TREQ leaves under ALL_OFF_PACKAGE, from its arrival on (R338, R339). -/

namespace Sys2Proof.Machine

variable {s : State} {r : Req}

/-- A seal record. -/
theorem does_sealRecord (ha : arrives s .pp (reqCredits r)) (hm : malformed [1, 2, 3] { r with addr := 0 } = false) (ho : r.opc = 3)
    (hc : cryptMode s = 2) (hw : isSealWin r.addr = true) (hl : r.len.toNat = 63) :
    Does (.sealRecord r) s (if recordWaits s r then hold (.sealRecord r) s else sealRecordIn r s) := by
  have hof : ofUnit s r = true := by simp [ofUnit, hc, ho, hw]
  rw [← ppSealed_record ho hw hl, ← ppIn_window (.inl hof) hm hc hw]
  exact does_pp exec_sealRecord rfl ha

/-- Data of a unit. -/
theorem does_unitData (ha : arrives s .pp (reqCredits r)) (hm : malformed [1, 2, 3] r = false) (ho : r.opc = 2 ∨ r.opc = 3)
    (hc : cryptMode s = 2) (hw : isSealWin r.addr = false) (hl : r.len.toNat = 511) (h512 : r.addr.toNat % 512 = 0)
    (hin : r.addr.toNat + 512 ≤ dpaEnd) : Does (.ppTargetRequest r) s (unitData (.ppTargetRequest r) r s) := by
  have hof : ofUnit s r = true := by
    have hn : reqLen r = 512 := by rw [reqLen, hl]
    have hi : inMemory r.addr.toNat 512 = true := decide_eq_true hin
    simpa [ofUnit, hc, hw, hn, h512, hi] using ho
  rw [← ppSealed_data ho hw hl h512 hin, ← ppIn_data (.inl hof) hm hc hw]
  exact does_pp exec_ppTargetRequest rfl ha

/-- A read-back: it is well formed at any address. -/
theorem does_readBack (ha : arrives s .pp 0) (hord : ordered s .pp r.chip r.oc = false) (hc : cryptMode s = 2) (ho : r.opc = 1)
    (hoc : r.oc = 2) (hl : r.len = 0) (hbe : r.beOk = true) (hin : isSealWin r.addr = true ∨ r.addr.toNat + 1 ≤ dpaEnd) :
    Does (.ppTargetRequest r) s (if s.peerFail.contains r.chip then
        answer .pp true r.tag 2 [] { s with peerFail := s.peerFail.filter fun x => x != r.chip }
      else answer .pp true r.tag 0 [0] s) := by
  have hrb : readBack r = true := by simp [readBack, reqLen, ho, hl, hoc]
  have hm (a : Word) : malformed [1, 2, 3] { r with addr := a } = false := by
    have h4096 : ¬a.toNat % 4096 + 1 > 4096 := by omega
    simp [malformed, reqLen, ho, hl, hoc, hbe, h4096]
  have hpp : ppIn (.ppTargetRequest r) r s = ppSealed (.ppTargetRequest r) r s := by
    by_cases hw : isSealWin r.addr = true
    · exact ppIn_window (.inr hord) (hm 0) hc hw
    · exact ppIn_data (.inr hord) (hm r.addr) hc (eq_false_of_ne_true hw)
  rw [← ppSealed_readBack (c := .ppTargetRequest r) hrb hin, ← hpp]
  exact does_pp exec_ppTargetRequest rfl (by rwa [reqCredits_read ho])

/-- A read of the seal window. -/
theorem does_sealWindowRd (ha : arrives s .pp 0) (hord : ordered s .pp r.chip r.oc = false)
    (hm : malformed [1, 2, 3] { r with addr := 0 } = false) (ho : r.opc = 1) (hc : cryptMode s = 2) (hw : isSealWin r.addr = true)
    (hl : r.len.toNat = 63) : Does (.sealWindowRd r) s (sealWinRd (.sealWindowRd r) r s) := by
  rw [← ppSealed_windowRd ho hw hl, ← ppIn_window (.inr hord) hm hc hw]
  exact does_pp exec_sealWindowRd rfl (by rwa [reqCredits_read ho])

end Sys2Proof.Machine
end

section
/-! The requests of peers and of the fabric. -/

namespace Sys2Proof.Machine

/-- Settles O51: each request enters by its gate, and has the effect of its case above. -/
theorem peerRequests : Obligations.PeerRequests := by
  intro s r n
  refine ⟨fun c hc ha hp => ?wakes, ⟨turnedAway_of_fabricGate exec_sig_fp rfl, fun ha hp ho h1 h2 h3 h4 h5 h6 h63 h31 => ?sigFabric⟩,
    fun ha ho h1 h2 h3 h4 h5 h6 => ?sigPeer, fun p e m w hf => semAdd_fits hf, fun p e m w hf => semAdd_overflow hf,
    ⟨turnedAway_of_fabricGate exec_inboundWrite rfl, fun ha hp hm => ?writeMalformed, fun ha hp ho hm h63 => ⟨fun hx => ?writeRefused,
      fun hst hk hsh hw => ?writeTaken⟩⟩,
    fun hin hc => ?clear, fun ha hm ho hc hw hl => ?record, fun ha hm ho hc hw hl h512 hin hu => ?unitWrite,
    fun ha hord hc ho hoc hl hbe hin => ?readBack, fun ha hord hm ho hc hw hl => ?windowRd, fun chip unit h => ?expire⟩
  case wakes =>
    have he : exec c s = done (hold c (wake n.toNat s)) := by
      simp only [List.mem_cons, List.not_mem_nil, or_false] at hc
      rcases hc with rfl | rfl
      · exact exec_sig_fp.trans (fabricGate_waits rfl ha hp)
      · exact exec_inboundWrite.trans (fabricGate_waits rfl ha hp)
    obtain ⟨x, hx, hch, hn, hk⟩ := waits_for_churn n.isLt hp he
    exact ⟨_, hx, rfl, congrArg Churn.waking hn, hk, by rw [hch]⟩
  case sigFabric =>
    have hd := does_fabric exec_sig_fp (by rw [cmdPort, reqCredits_sig h1]) ha hp
    rw [sigIn_fp ho ⟨h1, h2, h3, h4, h5, h6⟩ h63 h31] at hd
    refine ⟨fun hx => ?_, fun hx => ?_⟩
    · rw [if_neg hx] at hd
      exact ⟨_, hd, tagFault_bit .., by rw [tagFault_faults]⟩
    · rw [if_pos hx] at hd
      exact ⟨_, hd⟩
  case sigPeer =>
    have hd := does_pp exec_sig_pp rfl (by rwa [reqCredits_sig h1])
    rw [ppIn_sig h1] at hd
    refine ⟨fun h63 h47 h43 => ?_, fun h47 => ?_⟩
    · rw [sigIn_pp ho ⟨h1, h2, h3, h4, h5, h6⟩ h63 h47 h43] at hd
      exact ⟨_, hd⟩
    · rw [sigIn_pp_elsewhere ho h47] at hd
      exact ⟨_, hd, tagFault_bit .., by rw [tagFault_faults]⟩
  case writeMalformed =>
    have hd := does_fabric exec_inboundWrite rfl ha hp
    rw [inboundIn_malformed hm] at hd
    exact ⟨_, hd, tagFault_bit .., tagFault_faults ..⟩
  case writeRefused =>
    have hd := does_fabric exec_inboundWrite rfl ha hp
    rw [inboundIn_refused ho hm h63 hx] at hd
    exact ⟨_, hd, inRefuse_effect ..⟩
  case writeTaken =>
    have hd := does_fabric exec_inboundWrite rfl ha hp
    have hturn : writeInTurn s n r := ⟨ho, hm, h63, hst, hk, hsh, hw⟩
    refine ⟨fun hn => ?_, fun o hs => ?_⟩
    · rwa [inboundIn_noTaker hturn hn] at hd
    · rw [inboundIn_taker hturn hs] at hd
      refine ⟨fun hoff hfull => ?_, fun hoff => ?_, fun hoff hfull => ?_⟩
      · rwa [if_neg (not_not_intro hoff), if_pos hfull] at hd
      · rw [if_pos hoff] at hd
        exact ⟨_, hd, tagFault_bit .., by rw [tagFault_faults]⟩
      · rwa [if_neg (not_not_intro hoff), if_neg (ne_true_of_eq_false hfull)] at hd
  case clear =>
    obtain ⟨ha, ho, hm⟩ := hin
    have hd := does_pp exec_ppTargetRequest rfl ha
    rw [ppIn_clear ho hm hc] at hd
    refine ⟨fun hi => ?_, fun hi => ?_⟩
    · rwa [memRequest_inside (by exact hi)] at hd
    · rwa [memRequest_outside (by exact hi)] at hd
  case record =>
    have hd := does_sealRecord ha hm ho hc hw hl
    refine ⟨fun hwait => ?_, fun hwait => ?_⟩
    · rwa [if_pos hwait] at hd
    rw [if_neg (ne_true_of_eq_false hwait)] at hd
    refine ⟨fun hu => ?_, fun u hu hk => ?_, fun u hu hk hopen => ?_, fun u pt hu hk hopen => ?_⟩
    · rw [sealRecordIn_none hu] at hd
      obtain ⟨e, v, f, fs, hf⟩ := ppCrypt_frame (code := 3) (by decide) (by decide) 5 (fld r.addr 38 36)
        ((r.addr.setWidth 36).toNat * 4096) none s
      exact ⟨_, hd, ppCrypt_bit (by decide), by rw [hf]⟩
    · rw [sealRecordIn_noKey hu hk] at hd
      exact ⟨_, hd, unitFailed_effect (by decide) (by decide) (by decide) r u s⟩
    · rw [sealRecordIn_mismatch hu hk hopen] at hd
      obtain ⟨hb, hf, -⟩ := unitFailed_effect (k := 3) (code := 3) (by decide) (by decide) (by decide) r u s
      exact ⟨_, hd, hb, hf⟩
    · rw [sealRecordIn_opens hu hk hopen] at hd
      exact hd
  case unitWrite =>
    have hd := does_unitData ha hm ho hc hw hl h512 hin
    rw [unitData_first hu] at hd
    refine ⟨fun h32 => ?_, fun h32 hwait => ?_⟩
    · rwa [if_pos (by simp [h32])] at hd
    · rw [if_neg (by simpa [h32] using hwait)] at hd
      exact ⟨_, hd, rfl, rfl⟩
  case readBack =>
    have hd := does_readBack ha hord hc ho hoc hl hbe hin
    refine ⟨fun hf => ?_, fun hf => ?_⟩
    · rwa [if_pos hf] at hd
    · rwa [if_neg (ne_true_of_eq_false hf)] at hd
  case windowRd =>
    have hd := does_sealWindowRd ha hord hm ho hc hw hl
    refine ⟨fun hout => ?_, fun hi h32 => ?_, fun hi h32 hk => ?_, fun hi h32 hk => ?_⟩
    · rwa [sealWinRd_outside ho hout] at hd
    · rwa [sealWinRd_inside hi, if_pos h32] at hd
    · rw [sealWinRd_inside hi, if_neg (Nat.not_le.mpr h32), if_pos (by rw [hk]; rfl)] at hd
      obtain ⟨e, v, f, fs, hf⟩ := ppCrypt_frame (code := 0x12) (by decide) (by decide) 1 (fld r.addr 38 36)
        ((r.addr.setWidth 36).toNat * 4096) none s
      exact ⟨_, hd, ppCrypt_bit (by decide), by rw [hf]⟩
    · rw [sealWinRd_inside hi, if_neg (Nat.not_le.mpr h32), if_neg (by rw [hk]; decide)] at hd
      exact ⟨_, hd, fun x hx ⟨hchip, hunit⟩ => by simpa [hchip, hunit] using (List.mem_filter.mp hx).2, rfl⟩
  case expire =>
    exact ⟨_, does_sealedCopyExpire h, rfl, length_lmod .., fun _ hx => find?_copyExpired hx⟩

end Sys2Proof.Machine
end

section
/-! SUPPORT. The op queue of a churn: what an arriving op leaves, what a dispatched one leaves, and the refusal of a cop op
(R15, R22, R100, R149, R187, R356). -/

namespace Sys2Proof.Machine

variable {s : State} {n : Nat} {o : ChurnOp} {r : List ChurnOp}

/-- A wake changes no queue of the churn, and not its power state. -/
theorem churnAt_wake_keeps (h : n < 32) : (churnAt (wake n s) n).coming = (churnAt s n).coming ∧
    (churnAt (wake n s) n).queue = (churnAt s n).queue ∧ (churnAt (wake n s) n).pwr = (churnAt s n).pwr := by
  rw [wake, churnAt_modChurn_same h]
  split <;> exact ⟨rfl, rfl, rfl⟩

/-- A churn that is not ACTIVE is waking after a cause of its wake (R356). -/
theorem churnAt_wake_waking (h : n < 32) (hp : (churnAt s n).pwr ≠ .active) : (churnAt (wake n s) n).waking = true := by
  rw [churnAt_wake h hp]

/-- Whether an arriving op gets the generation reference it wants (R149). -/
def getsGen (s : State) (n : Nat) (o : ChurnOp) : Bool :=
  (o.kind == .sin && o.lsl) && (vget {} (churnAt s n).gens (BitVec.ofNat 4 o.desc.cbgen).toNat : Gen).st == .live
    && !genBarred s n (BitVec.ofNat 4 o.desc.cbgen).toNat

/-- An op as it stands in the queue of churn `n`, with its generation reference (R149). -/
def queuedOp (s : State) (n : Nat) (o : ChurnOp) : ChurnOp :=
  { o with gen := if getsGen s n o then some (BitVec.ofNat 4 o.desc.cbgen) else none
           noGen := (o.kind == .sin && o.lsl) && !getsGen s n o }

/-- Churn `n` once op `o` has entered its queue, with `r` still on its way. -/
def queuedChurn (s : State) (n : Nat) (o : ChurnOp) (r : List ChurnOp) : Churn :=
  { (if getsGen s n o then refGen (BitVec.ofNat 4 o.desc.cbgen) true (churnAt s n) else churnAt s n) with
    coming := r, queue := (churnAt s n).queue ++ [queuedOp s n o] }

/-- An op that is not a stream-in with LSL set takes no generation reference and misses none (R149). -/
theorem queuedOp_noGen (h : o.kind ≠ .sin ∨ o.lsl = false) : (queuedOp s n o).gen = none ∧ (queuedOp s n o).noGen = false := by
  have hw : (o.kind == .sin && o.lsl) = false := by
    rcases h with h | h <;> simp [h]
  simp [queuedOp, getsGen, hw]

/-- An op that enters the queue leaves the power state. -/
theorem queuedChurn_pwr : (queuedChurn s n o r).pwr = (churnAt s n).pwr := by
  unfold queuedChurn; split <;> rfl

/-- Nothing arrives where nothing is on its way. -/
theorem arrive_nil (h : (churnAt s n).coming = []) : arrive n s = s := by
  simp only [arrive, h]

/-- The oldest op on its way enters the queue, and the churn wakes (R149, R356). -/
theorem arrive_cons (h : (churnAt s n).coming = o :: r) : arrive n s = wake n (setChurn s n (queuedChurn s n o r)) := by
  have hq (b : Bool) (g : BitVec 4) (c : Churn) : (if b then refGen g true c else c).queue = c.queue := by cases b <;> rfl
  simp only [arrive, h, hq]
  rfl

/-- Churn `n` once op `o` has been dispatched and `r` is left in its queue: the hub has its credit back (R15, R22). -/
def dispatchedChurn (s : State) (n : Nat) (o : ChurnOp) (r : List ChurnOp) : Churn :=
  { churnAt s n with
    queue := r, run := (churnAt s n).run ++ [sampled s n o], credit := (churnAt s n).credit + 1 }

/-- Nothing leaves an empty queue. -/
theorem dispatch_nil (h : (churnAt s n).queue = []) : dispatch n s = s := by
  simp only [dispatch, h]

/-- An op that cannot be dispatched stays at the head. -/
theorem dispatch_waits (h : (churnAt s n).queue = o :: r) (hc : canDispatch s n o = false) : dispatch n s = s := by
  simp [dispatch, h, hc]

/-- The op at the head is dispatched (R15). -/
theorem dispatch_cons (h : (churnAt s n).queue = o :: r) (hc : canDispatch s n o = true)
    (hk : o.kind = .cop → isCop 1 o || isCop 2 o || isCop 3 o) : dispatch n s = setChurn s n (dispatchedChurn s n o r) := by
  have hk : (o.kind == .cop && !(isCop 1 o || isCop 2 o || isCop 3 o)) = false := by
    rw [Bool.and_eq_false_imp, beq_iff_eq]
    exact fun h => by rw [hk h]; rfl
  simp only [dispatch, h, hc, hk]
  rfl

/-- A cop op of a reserved code is dispatched, and started at once (R100, R187). -/
theorem dispatch_reserved (h : (churnAt s n).queue = o :: r) (hc : canDispatch s n o = true) (hk : o.kind = .cop)
    (h1 : isCop 1 o = false) (h2 : isCop 2 o = false) (h3 : isCop 3 o = false) :
    dispatch n s = copStart n (sampled s n o) (setChurn s n (dispatchedChurn s n o r)) := by
  simp only [dispatch, h, hc, hk, h1, h2, h3]
  rfl

/-- The start of an op leaves its churn's queue and credit. -/
theorem churnAt_begun_keeps (h : n < 32) (x : RunOp) (bad : Bool) :
    (churnAt (begun n x bad s) n).queue = (churnAt s n).queue ∧ (churnAt (begun n x bad s) n).credit = (churnAt s n).credit := by
  rw [begun, modRun, churnAt_modChurn_same h]
  exact ⟨rfl, rfl⟩

/-- A fault of an op shows in FLT_STAT and in ASTAT, and leaves every churn (R108, R376). -/
theorem opFault_effect {c : Nat} (hc : c < 24) (n : Nat) (o : ChurnOp) (info : Word) (s : State) :
    (opFault c n o info s).flt.getLsbD c = true ∧ (opFault c n o info s).sep.astat.getLsbD 0 = true ∧
      (opFault c n o info s).churns = s.churns := by
  refine ⟨raise_bit _ _ _ hc, setAstat_bit (by decide) _, ?_⟩
  show (raise c (churnRec n o) info s).churns = s.churns
  rw [raise_frame]

/-- A cop op of a reserved code cannot act (R187). -/
theorem copLegal_reserved (hk : o.kind = .cop) (h1 : isCop 1 o = false) (h2 : isCop 2 o = false) (h3 : isCop 3 o = false) :
    copLegal o = false := by
  simp only [isCop, hk, beq_self_eq_true, Bool.true_and, beq_eq_false_iff_ne] at h1 h2 h3
  unfold copLegal
  split
  case h_1 hc => exact absurd hc h1
  case h_2 hc => exact absurd hc h2
  case h_3 hc => exact absurd hc h3
  case h_4 => rfl

/-- A cop op that cannot act starts as refused, with ILLEGAL_OP (R100, R187). -/
theorem copStart_illegal {x : RunOp} (h : copLegal x.op = false) :
    (copStart n x s).flt.getLsbD 0x14 = true ∧ (copStart n x s).sep.astat.getLsbD 0 = true ∧
      (copStart n x s).churns = (begun n x true s).churns := by
  have hs : copStart n x s = opFault 0x14 n x.op (BitVec.ofNat 64 (opCode x.op)) (begun n x true s) := by
    simp only [copStart, h]
    rfl
  rw [hs]
  exact opFault_effect (by decide) ..

/-- CHURN_OP_ARRIVE in a block that works. -/
theorem does_churnOpArrive (h : live s = true) (n : BitVec 5) : Does (.churnOpArrive n) s (arrive n.toNat s) := inner_live h _

/-- CHURN_OP_DISPATCH in a block that works. -/
theorem does_churnOpDispatch (h : live s = true) (n : BitVec 5) : Does (.churnOpDispatch n) s (dispatch n.toNat s) := inner_live h _

end Sys2Proof.Machine
end

section
/-! The queues of the churns. -/

namespace Sys2Proof.Machine

/-- Settles O39: an op on its way or in the queue moves by one equation of `arrive` or `dispatch`, and each clause reads the churn that
this equation leaves. -/
theorem churnQueues : Obligations.ChurnQueues := by
  intro s n hl c
  have hn : n.toNat < 32 := n.isLt
  have ha := does_churnOpArrive hl n
  have hd := does_churnOpDispatch hl n
  refine ⟨fun h => ?nothingArrives, fun o r h => ?arrives, fun h => ?nothingQueued, fun o r h hc => ?waits, fun o r h hc hk => ?dispatched,
    fun o r h hc hk h1 h2 h3 => ?reserved⟩
  case nothingArrives => rwa [arrive_nil h] at ha
  case arrives =>
    rw [arrive_cons h] at ha
    have hq : churnAt (setChurn s n.toNat (queuedChurn s n.toNat o r)) n.toNat = queuedChurn s n.toNat o r := churnAt_setChurn_same hn
    obtain ⟨hcoming, hqueue, hpwr⟩ := churnAt_wake_keeps (s := setChurn s n.toNat (queuedChurn s n.toNat o r)) hn
    rw [hq] at hcoming hqueue hpwr
    refine ⟨_, ha, hcoming, ⟨_, hqueue, rfl, rfl, rfl, rfl, queuedOp_noGen⟩, hpwr.trans queuedChurn_pwr, fun hp => ?_, fun k hk => ?_, rfl⟩
    · exact churnAt_wake_waking hn (by rwa [hq, queuedChurn_pwr])
    · exact (churnAt_modChurn_ne hk).trans (churnAt_setChurn_ne hk)
  case nothingQueued => rwa [dispatch_nil h] at hd
  case waits => rwa [dispatch_waits h hc] at hd
  case dispatched =>
    rw [dispatch_cons h hc hk] at hd
    refine ⟨_, hd, ?_⟩
    rw [churnAt_setChurn_same hn]
    refine ⟨rfl, rfl, ⟨sampled s n.toNat o, rfl, rfl, rfl, rfl, rfl, rfl, rfl, fun hs hch => ?_, fun hu => if_pos hu⟩,
      fun k hk => churnAt_setChurn_ne hk, rfl⟩
    have hw : chainWords s o = (rd s (.chainSteps o.desc.chain), rd s (.chainParam o.desc.chain)) :=
      if_neg (not_or.mpr ⟨not_not_intro hs, hch⟩)
    exact ⟨congrArg Prod.fst hw, congrArg Prod.snd hw⟩
  case reserved =>
    let y := setChurn s n.toNat (dispatchedChurn s n.toNat o r)
    obtain ⟨hflt, hast, hchurns⟩ := copStart_illegal (n := n.toNat) (s := y) (x := sampled s n.toNat o) (copLegal_reserved hk h1 h2 h3)
    have hat : churnAt (copStart n.toNat (sampled s n.toNat o) y) n.toNat = churnAt (begun n.toNat (sampled s n.toNat o) true y) n.toNat :=
      congrArg (vget ({} : Churn) · n.toNat) hchurns
    obtain ⟨hqueue, hcredit⟩ := churnAt_begun_keeps (s := y) hn (sampled s n.toNat o) true
    rw [← hat, churnAt_setChurn_same hn] at hqueue hcredit
    rw [dispatch_reserved h hc hk h1 h2 h3] at hd
    exact ⟨_, hd, hqueue, hcredit, hflt, hast⟩

end Sys2Proof.Machine
end

section
/-! SUPPORT. Messages on their way out change no running op of a churn: what a delivery sends finds and leaves the op as it was
(R21, R38, R236, R237, R249, R254). -/

namespace Sys2Proof.Machine

variable {s t u : State}

/-- No churn's running ops differ between two states. -/
structure SameRuns (s t : State) : Prop where
  run_eq (n : Nat) : (churnAt t n).run = (churnAt s n).run

/-- One change after another. -/
theorem SameRuns.trans (h : SameRuns s t) (k : SameRuns t u) : SameRuns s u := ⟨fun n => (k.run_eq n).trans (h.run_eq n)⟩

/-- States with the same churns have the same running ops. -/
theorem sameRuns_of_churns (h : t.churns = s.churns) : SameRuns s t :=
  ⟨fun n => congrArg (fun v => (vget ({} : Churn) v n).run) h⟩

/-- Nothing changed. -/
theorem SameRuns.refl (s : State) : SameRuns s s := sameRuns_of_churns rfl

/-- An op is found among the same running ops as before. -/
theorem SameRuns.runAt_eq (h : SameRuns s t) (n id : Nat) : runAt t n id = runAt s n id := by rw [runAt, runAt, h.run_eq]

/-- A change of a churn beside its running ops. -/
theorem modChurn_sameRuns {f : Churn → Churn} (n : Nat) (h : ∀ c, (f c).run = c.run) (s : State) : SameRuns s (modChurn n f s) := by
  constructor
  intro m
  by_cases hm : m = n
  · subst hm
    by_cases hr : m < 32
    · rw [churnAt_modChurn_same hr, h]
    · have hv : vset s.churns m (f (churnAt s m)) = s.churns := Vector.setIfInBounds_eq_of_size_le (Nat.not_lt.mp hr)
      exact congrArg (fun v => (vget ({} : Churn) v m).run) hv
  · rw [churnAt_modChurn_ne hm]

/-- The turn of a queue that is noted (R237). -/
theorem mpNote_sameRuns (n q : Nat) (s : State) : SameRuns s (mpNote n q s) := by
  refine modChurn_sameRuns n (fun c => ?_) s
  rfl

/-- Other messages that wait. -/
theorem txq_sameRuns (q : List TxReq) (s : State) : SameRuns s { s with txq := q } := sameRuns_of_churns rfl

/-- A message that is driven. -/
theorem drive_sameRuns (m : Msg) (o : Option Owner) (s : State) : SameRuns s (drive m o s) := by
  cases o <;> exact sameRuns_of_churns rfl

/-- A message that meets a link that is down. -/
theorem sendDown_sameRuns (m : Msg) (o : Option Owner) (s : State) : SameRuns s (sendDown m o s) := by
  cases o with
  | some o => exact sameRuns_of_churns rfl
  | none =>
    unfold sendDown raisePort
    dsimp only
    split
    · exact .refl s
    · split
      · rw [raise_frame]; exact sameRuns_of_churns rfl
      · exact sameRuns_of_churns rfl

/-- What follows an issued message. -/
theorem issuedTx_sameRuns (c : Option Nat) (s : State) : SameRuns s (issuedTx c s) := by
  unfold issuedTx
  split
  · split
    · exact sameRuns_of_churns rfl
    · exact .refl s
  · exact .refl s

/-- The pick of a port's next message: the turn it notes in a churn is no running op (R236, R237). -/
theorem nextTx_sameRuns {p : PortId} {x : TxReq} (h : nextTx p s = some (x, t)) : SameRuns s t := by
  cases p with
  | mp n =>
    simp only [nextTx] at h
    split at h
    · cases h
    · simp only [Option.map_eq_some_iff, Prod.mk.injEq] at h
      obtain ⟨y, -, -, rfl⟩ := h
      exact (txq_sameRuns y.2 s).trans (mpNote_sameRuns _ _ _)
  | fp n =>
    simp only [nextTx] at h
    split at h
    · cases h
    · next e _ =>
      simp only [Option.map_eq_some_iff, Prod.mk.injEq] at h
      obtain ⟨y, -, -, rfl⟩ := h
      cases e with
      | none => exact txq_sameRuns y.2 s
      | some e => exact (txq_sameRuns y.2 s).trans (modChurn_sameRuns (f := fun c => { c with fpLast := 1 - e }) _ (fun _ => rfl) _)
  | hbp | pp | cp | ccp =>
    simp only [nextTx] at h
    split at h
    · cases h
    · split at h
      · cases h; exact txq_sameRuns _ s
      · cases h

/-- All that a port can drive. -/
theorem pump_sameRuns (p : PortId) (k : Nat) (s : State) : SameRuns s (pump p k s) := by
  induction k generalizing s with
  | zero => exact .refl s
  | succ k ih =>
    rw [pump]
    split
    · exact .refl s
    · split
      · exact .refl s
      · next h => exact (nextTx_sameRuns h).trans ((drive_sameRuns ..).trans ((issuedTx_sameRuns ..).trans (ih _)))

/-- A message sent (R21). -/
theorem send_sameRuns (m : Msg) (o : Option Owner) (s : State) : SameRuns s (send m o s) := by
  unfold send sendBy
  split
  · exact (sendDown_sameRuns ..).trans (issuedTx_sameRuns ..)
  · exact (txq_sameRuns _ s).trans (pump_sameRuns ..)

/-- Bytes written on FPn_OUT (R43). -/
theorem fpWrite_sameRuns (n a : Nat) (d : List Byte) (s : State) : SameRuns s (fpWrite n a d s) := by
  unfold fpWrite
  generalize cuts 4096 a d.length = l
  induction l generalizing s with
  | nil => exact .refl s
  | cons x r ih => exact (send_sameRuns ..).trans (ih _)

/-- The EMPTY counts that a context takes (R249, R255). -/
theorem takeEmpty_sameRuns (p : Nat) (s : State) : SameRuns s (takeEmpty p s) := by
  unfold takeEmpty
  split
  · exact .refl s
  · dsimp only
    split
    · exact .refl s
    · split
      · exact (sameRuns_of_churns (setPair_churns ..)).trans (send_sameRuns ..)
      · exact sameRuns_of_churns rfl

/-- A count added to a semaphore pair (R254). -/
theorem semAdd_sameRuns (p : Nat) (e : Bool) (k : Nat) (w : Word) (s : State) : SameRuns s (semAdd p e k w s) := by
  unfold semAdd
  split
  · exact (sameRuns_of_churns (setPair_churns ..)).trans (takeEmpty_sameRuns ..)
  · rw [raise_frame]; exact sameRuns_of_churns rfl

/-- The signal of a delivery (R250). -/
theorem signal_sameRuns (n : Nat) (o : RunOp) (c h k : Nat) (s : State) : SameRuns s (signal n o c h k s) := by
  unfold signal
  dsimp only
  split
  · exact semAdd_sameRuns ..
  · exact send_sameRuns ..

end Sys2Proof.Machine
end

section
/-! SUPPORT. A tile that an op delivers: when it may, what is written and signalled, and the tile it goes on to (R248, R249, R250, R256). -/

namespace Sys2Proof.Machine

variable {s t : State} {n id : Nat} {o : RunOp} {u : FUnit} {r : List FUnit}

/-- A running op after it was changed, its identity apart. -/
theorem runAt_modRun {f : RunOp → RunOp} (hn : n < 32) (h : runAt s n id = some o) (hf : ∀ x, (f x).op = x.op) :
    runAt (modRun n id f s) n id = some (f o) := by
  rw [runAt, modRun, churnAt_modChurn_same hn]
  exact find?_lmod h fun x hx => by rwa [hf]

/-- A running op has the number it is found by. -/
theorem runAt_id (h : runAt s n id = some o) : o.op.id = id := by
  simpa using List.find?_some h

/-- The units of a churn that can do nothing leave the state (R356). -/
theorem churnGo_still (h : churnQuantum n s = none) : churnGo n s = s := by
  unfold churnGo
  split
  · rfl
  · rw [churnLoop, h]

/-- A command whose end lets the units of churn `n` go on, in both of its forms. -/
theorem does_churnGo {c : Instr} (h : Does c s (churnGo n t)) : Does c s (churnGo n t) ∧ (churnQuantum n t = none → Does c s t) :=
  ⟨h, fun hq => by rwa [churnGo_still hq] at h⟩

/-- Whether op `o` of churn `n` may deliver the next tile of its unit `u`: the unit is finished, its context has tiles, the tile lies in the
window or the stage is a barrier stage, and no earlier op delivers there (R242, R248, R249, R256). -/
def mayDeliver (s : State) (n : Nat) (o : RunOp) (u : FUnit) : Prop :=
  let x := ctxAt s o.op.desc.ctx
  o.aborted = false ∧ u.stage = 2 ∧ x.kind = 1 ∧ x.tile ≠ 0 ∧ (o.barrier = true ∨ unitTile s o u < x.rel.toNat + 2 * x.ht) ∧
    firstOut s n o.op = true

/-- The bytes of the tile of unit `u`. -/
def tileLen (s : State) (o : RunOp) (u : FUnit) : Nat := min (ctxAt s o.op.desc.ctx).tile ((unitPlace s o u).1 - u.off)

/-- The state with the next tile of unit `u` written at its address and, outside a barrier stage, signalled (R248, R250, R256). -/
def tilePut (s : State) (n : Nat) (o : RunOp) (u : FUnit) : State :=
  let x := ctxAt s o.op.desc.ctx
  let j := unitTile s o u
  let z := fpWrite n (tileAddr x o j) (((u.out.take (unitPlace s o u).1).drop u.off).take (tileLen s o u)) s
  if o.barrier then z else signal n o o.op.desc.ctx (j / x.ht) 1 z

/-- An op `y` once it has delivered a tile of the oldest unit `u` of `o`: it goes on in the unit, or with the units `r` after it. -/
def tileNext (s : State) (o : RunOp) (u : FUnit) (r : List FUnit) (y : RunOp) : RunOp :=
  let last := u.off + tileLen s o u ≥ (unitPlace s o u).1
  { y with tiles := y.tiles + 1
           uDone := if last then y.uDone + 1 else y.uDone
           units := if last then r else { u with off := u.off + tileLen s o u } :: r }

/-- The test of TILE_DELIVER. -/
theorem tileBlocked_iff :
    (o.aborted || u.stage != 2 || (ctxAt s o.op.desc.ctx).kind != 1 || (ctxAt s o.op.desc.ctx).tile == 0
      || !inWindow (ctxAt s o.op.desc.ctx) o (unitTile s o u) || !firstOut s n o.op) = false ↔ mayDeliver s n o u := by
  cases hb : o.barrier <;> simp [mayDeliver, inWindow, and_assoc, hb]

/-- Where no tile may be delivered, none is. -/
theorem tileOut_waits (hu : o.units = u :: r) (h : ¬mayDeliver s n o u) : tileOut n o s = s := by
  simp only [tileOut, hu]
  exact if_pos (eq_true_of_ne_false fun hb => h (tileBlocked_iff.mp hb))

/-- An op without units delivers no tile. -/
theorem tileOut_nil (hu : o.units = []) : tileOut n o s = s := by simp only [tileOut, hu]

/-- Where a tile may be delivered, it is, and the op goes on. -/
theorem tileOut_may (hu : o.units = u :: r) (h : mayDeliver s n o u) :
    tileOut n o s = modRun n o.op.id (tileNext s o u r) (tilePut s n o u) := by
  simp only [tileOut, hu]
  exact if_neg (ne_true_of_eq_false (tileBlocked_iff.mpr h))

/-- A tile that is written and signalled changes no running op. -/
theorem tilePut_sameRuns : SameRuns s (tilePut s n o u) := by
  unfold tilePut
  dsimp only
  split
  · exact fpWrite_sameRuns ..
  · exact (fpWrite_sameRuns ..).trans (signal_sameRuns ..)

/-- The op itself, once the tile is delivered. -/
theorem runAt_tileOut (hn : n < 32) (ho : runAt s n id = some o) (hu : o.units = u :: r) (h : mayDeliver s n o u) :
    runAt (tileOut n o s) n id = some (tileNext s o u r o) := by
  rw [tileOut_may hu h, runAt_id ho]
  exact runAt_modRun hn ((tilePut_sameRuns.runAt_eq n id).trans ho) fun _ => rfl

/-- More of the unit is left. -/
theorem tileNext_within (h : u.off + tileLen s o u < (unitPlace s o u).1) :
    tileNext s o u r o = { o with tiles := o.tiles + 1, units := { u with off := u.off + tileLen s o u } :: r } := by
  simp [tileNext, Nat.not_le.mpr h]

/-- The unit is delivered. -/
theorem tileNext_last (h : (unitPlace s o u).1 ≤ u.off + tileLen s o u) :
    tileNext s o u r o = { o with tiles := o.tiles + 1, uDone := o.uDone + 1, units := r } := by
  simp [tileNext, h]

/-- TILE_DELIVER as an event inside the block. -/
theorem exec_tileDeliver (m : BitVec 5) (id : Nat) (s : State) : exec (.tileDeliver m id) s = execTileDeliver m id s := rfl

/-- TILE_DELIVER of a started stream-out op in an ACTIVE churn of a block that works. -/
theorem does_tileDeliver {m : BitVec 5} (hl : live s = true) (ho : runAt s m.toNat id = some o) (hk : o.op.kind = .sout)
    (hs : o.started = true) (hp : (churnAt s m.toNat).pwr = .active) :
    Does (.tileDeliver m id) s (churnGo m.toNat (tileOut m.toNat o s)) := by
  rw [Does, exec_tileDeliver, execTileDeliver, inner_live hl]
  simp [ho, hk, hs, hp]

/-- TILE_DELIVER without such an op. -/
theorem does_tileDeliver_none {m : BitVec 5} (hl : live s = true)
    (h : ∀ o, runAt s m.toNat id = some o → o.op.kind ≠ .sout ∨ o.started = false ∨ (churnAt s m.toNat).pwr ≠ .active) :
    Does (.tileDeliver m id) s s := by
  rw [Does, exec_tileDeliver, execTileDeliver, inner_live hl]
  cases ho : runAt s m.toNat id with
  | none => rfl
  | some o => rcases h o ho with hk | hs | hp <;> simp [*]

end Sys2Proof.Machine
end

section
/-! SUPPORT. The partial sums and the statistics of rows that arrive (R177). -/

namespace Sys2Proof.Machine

variable {s : State} {n : BitVec 5} {id row seg : Nat} {f : RowFlit}

/-- The element that `lmod` changes is in the list in its new form, and every other one as it was. -/
theorem mem_lmod_of_find? {α : Type} {p : α → Bool} {g : α → α} {l : List α} {x : α} (h : l.find? p = some x) :
    g x ∈ lmod p g l ∧ ∀ y ∈ l, y ≠ x → y ∈ lmod p g l := by
  induction l with
  | nil => simp at h
  | cons z r ih =>
    by_cases hz : p z = true
    · rw [List.find?_cons_of_pos hz, Option.some.injEq] at h
      subst h
      simp +contextual [lmod, hz]
    · rw [List.find?_cons_of_neg hz] at h
      obtain ⟨hg, hr⟩ := ih h
      rw [lmod, if_neg hz]
      exact ⟨List.mem_cons_of_mem _ hg, fun y hy hne => List.mem_cons.mpr ((List.mem_cons.mp hy).imp_right fun hy => hr y hy hne)⟩

/-- The partial of segment `seg` of row `row` of op `id` that is on its way to churn `n`. -/
def partialFor (n : BitVec 5) (id row seg : Nat) : RowFlit → Bool := fun f =>
  f.id == id && f.row == row && f.seg == seg && f.dst.isNone && !f.arrived && f.home.toNat == n.toNat

/-- The statistics of row `row` of op `id` that are on their way to churn `n`. -/
def statsFor (n : BitVec 5) (id row : Nat) : RowFlit → Bool := fun f => f.id == id && f.row == row && f.dst == some n && !f.arrived

/-- The first flit with property `p`, arrived. -/
def flitArrived (p : RowFlit → Bool) (s : State) : State := { s with flits := lmod p (fun f => { f with arrived := true }) s.flits }

/-- What is no partial on its way to churn `n`. -/
theorem partialFor_eq_false (h : ¬(f.id = id ∧ f.row = row ∧ f.seg = seg ∧ f.dst = none ∧ f.arrived = false ∧ f.home = n)) :
    partialFor n id row seg f = false := by
  refine eq_false_of_ne_true fun hp => h ?_
  simpa [partialFor, and_assoc, BitVec.toNat_inj] using hp

/-- ROW_PARTIAL in a block that works. -/
theorem does_rowPartial (h : live s = true) : Does (.rowPartial n id row seg) s (rowPartialIn n.toNat id row seg s) := inner_live h _

/-- No partial is on its way. -/
theorem rowPartialIn_none (h : s.flits.find? (partialFor n id row seg) = none) : rowPartialIn n.toNat id row seg s = s := by
  unfold partialFor at h
  simp only [rowPartialIn, h]

/-- What churn `n` does with row `row` in state `z`, if op `id` still runs there and its step `step` forms row statistics (R177). -/
def homeStep (s : State) (n id step row : Nat) (z : State) : State :=
  match runAt s n id with
  | none => z
  | some o => match flitJob o step with | some j => homeRow n o j step row z | none => z

/-- The op is no more. -/
theorem homeStep_gone {n step : Nat} {z : State} (ho : runAt s n id = none) : homeStep s n id step row z = z := by
  simp only [homeStep, ho]

/-- The step forms no row statistics. -/
theorem homeStep_noJob {n step : Nat} {o : RunOp} {z : State} (ho : runAt s n id = some o) (hj : flitJob o step = none) :
    homeStep s n id step row z = z := by
  simp only [homeStep, ho, hj]

/-- The home finishes the row if it can. -/
theorem homeStep_job {n step : Nat} {o : RunOp} {j : RowJob} {z : State} (ho : runAt s n id = some o)
    (hj : flitJob o step = some j) : homeStep s n id step row z = homeRow n o j step row z := by
  simp only [homeStep, ho, hj]

/-- The partial that is on its way arrives, and its home does what it can (R177). -/
theorem rowPartialIn_some (h : s.flits.find? (partialFor n id row seg) = some f) :
    rowPartialIn n.toNat id row seg s = homeStep s n.toNat id f.step row (flitArrived (partialFor n id row seg) s) := by
  unfold partialFor at h
  simp only [rowPartialIn, h]
  rfl

/-- A home does nothing as long as a partial of the row is missing (R177). -/
theorem homeRow_missing {k : Nat} {o : RunOp} {j : RowJob} {step : Nat}
    (h : gathered s o.op.id step row (rowFrames o.op.desc.row o.op.elems row).2 = none) : homeRow k o j step row s = s := by
  simp only [homeRow, h]

/-- ROW_STATS_ARRIVE in a block that works. -/
theorem does_rowStatsArrive (h : live s = true) :
    Does (.rowStatsArrive n id row) s (churnGo n.toNat (flitArrived (statsFor n id row) s)) := by
  have hx : rowStatsIn n.toNat id row s = flitArrived (statsFor n id row) s := by
    simp only [rowStatsIn, BitVec.ofNat_toNat, BitVec.setWidth_eq]
    rfl
  rw [← hx]
  exact inner_live h fun s => churnGo n.toNat (rowStatsIn n.toNat id row s)

end Sys2Proof.Machine
end

section
/-! The deliveries of tiles, and the row traffic of the churns. -/

namespace Sys2Proof.Machine

/-- Settles O42: a tile waits or is delivered as `tileOut` says, and the op is looked up past what the delivery sends; row traffic is the
flit it marks as arrived. -/
theorem deliveriesAndRows : Obligations.DeliveriesAndRows := by
  intro s n id row seg hl k
  have hn : k < 32 := n.isLt
  refine ⟨fun o u r ho hk hs hp hu => ⟨fun hmay => ?waits, fun hmay => ?delivers⟩, fun o ho hk hs hp hu => ?noUnits,
    fun h => does_tileDeliver_none hl h, fun f hf => ?partialArrives, fun h => ?noPartial, ?statsArrive⟩
  case waits =>
    have hd := does_tileDeliver hl ho hk hs hp
    rw [tileOut_waits hu hmay] at hd
    exact does_churnGo hd
  case delivers =>
    obtain ⟨hgo, hstill⟩ := does_churnGo (does_tileDeliver hl ho hk hs hp)
    have hrun := runAt_tileOut hn ho hu hmay
    refine ⟨tileOut k o s, hgo, hstill, ?_, fun hin => ?_, fun hout => ?_⟩
    · rw [tileOut_may hu hmay]; rfl
    · rw [hrun]; exact congrArg some (tileNext_within hin)
    · rw [hrun]; exact congrArg some (tileNext_last hout)
  case noUnits =>
    have hd := does_tileDeliver hl ho hk hs hp
    rwa [tileOut_nil hu] at hd
  case partialArrives =>
    have hd := does_rowPartial (n := n) (id := id) (row := row) (seg := seg) hl
    rw [rowPartialIn_some hf] at hd
    obtain ⟨hmem, hrest⟩ := mem_lmod_of_find? (g := fun f : RowFlit => { f with arrived := true }) hf
    refine ⟨flitArrived (partialFor n id row seg) s, rfl, length_lmod .., hmem, hrest, fun h => ?_, fun o ho hj => ?_,
      fun o j ho hj => ?_⟩
    · rwa [homeStep_gone h] at hd
    · rwa [homeStep_noJob ho hj] at hd
    · rw [homeStep_job ho hj] at hd
      exact ⟨hd, fun hg => by rwa [homeRow_missing (by rwa [runAt_id ho])] at hd⟩
  case noPartial =>
    have hd := does_rowPartial (n := n) (id := id) (row := row) (seg := seg) hl
    rwa [rowPartialIn_none (List.find?_eq_none.mpr fun f hf => ne_true_of_eq_false (partialFor_eq_false (h f hf)))] at hd
  case statsArrive =>
    obtain ⟨hgo, hstill⟩ := does_churnGo (does_rowStatsArrive (n := n) (id := id) (row := row) hl)
    exact ⟨_, hgo, hstill, rfl, length_lmod .., fun f hf => (mem_lmod_of_find? hf).1⟩

end Sys2Proof.Machine
end

section
/-! SUPPORT. A mover channel after an update of it, and what the parts of a transfer's end leave there (R213, R226, R235, R285). -/

namespace Sys2Proof.Machine

variable {s : State} {i : ChanId}

/-- A read of the channel just written. -/
theorem chanAt_setChan (s : State) (i : ChanId) (x : Chan) : chanAt (setChan s i x) i = x := by
  cases i with
  | hub c => exact vget_vset_same _ _ _ _ c.isLt
  | pail n c =>
    rw [chanAt, setChan, churnAt_modChurn_same n.isLt]
    exact vget_vset_same _ _ _ _ c.isLt

/-- A read of the channel just changed. -/
theorem chanAt_modChan (i : ChanId) (f : Chan → Chan) (s : State) : chanAt (modChan i f s) i = f (chanAt s i) := chanAt_setChan ..

/-- A change of a channel hands out no place in the queue of waiting channels. -/
theorem modChan_stamp (i : ChanId) (f : Chan → Chan) (s : State) : (modChan i f s).stamp = s.stamp := by cases i <;> rfl

/-- A channel that is queued waits behind those that wait already (R235). -/
theorem chanAt_enqueueChan (i : ChanId) (s : State) :
    chanAt (enqueueChan i s) i = { chanAt s i with st := .queued, stamp := s.stamp } :=
  Eq.trans (by cases i <;> rfl) (chanAt_modChan i (fun c => { c with st := .queued, stamp := s.stamp }) s)

/-- The next channel to wait comes after one that is queued (R235). -/
theorem enqueueChan_stamp (i : ChanId) (s : State) : (enqueueChan i s).stamp = s.stamp + 1 := rfl

/-- The wake of a churn leaves its pails as they are. -/
theorem chanAt_wake (n : BitVec 5) (c : BitVec 3) (s : State) : chanAt (wake n.toNat s) (.pail n c) = chanAt s (.pail n c) := by
  rw [chanAt, wake, churnAt_modChurn_same n.isLt]
  split <;> rfl

/-- A channel that is changed and then queued. -/
theorem chanAt_enqueueChan_modChan (i : ChanId) (f : Chan → Chan) (s : State) :
    chanAt (enqueueChan i (modChan i f s)) i = { f (chanAt s i) with st := .queued, stamp := s.stamp } := by
  rw [chanAt_enqueueChan, chanAt_modChan, modChan_stamp]

/-- A channel after a launch: the shadow is the active copy, and the channel waits for its engine (R9, R233, R235). -/
theorem chanAt_chanLaunch (i : ChanId) (job : Job) (s : State) : chanAt (chanLaunch i job s) i = { chanAt s i with
    sh := (chanAt s i).sh.stored, act := (chanAt s i).sh, x := {}, job := job, runs := (chanAt s i).runs + 1, st := .queued,
    stamp := s.stamp } := by
  cases i with
  | hub c => exact chanAt_enqueueChan_modChan (.hub c) _ s
  | pail n c => exact (chanAt_wake n c _).trans (chanAt_enqueueChan_modChan (.pail n c) _ s)

/-- A launch takes one place in the queue of waiting channels. -/
theorem chanLaunch_stamp (i : ChanId) (job : Job) (s : State) : (chanLaunch i job s).stamp = s.stamp + 1 := by cases i <;> rfl

end Sys2Proof.Machine
end

section
/-! SUPPORT. The commands of a mover channel by its state (R213, R232, R233). -/

namespace Sys2Proof.Machine

variable {s : State} {o : Org} {i : ChanId} {v : Word} {c : Instr} {f : State → State}

/-- A pail's registers are reached only while its churn is ACTIVE (R356). -/
def chanAwake (s : State) (i : ChanId) : Prop := ∀ n k, i = .pail n k → (churnAt s n.toNat).pwr = .active

/-- A write of the CTL register of a channel that can be reached has its effect. -/
theorem chanGate_awake (h : live s = true) (ha : chanAwake s i) : chanGate i c f s = done (f s) := by
  cases i with
  | hub k => exact hostGate_live h c fun s => done (f s)
  | pail n k => exact churnGate_active h (ha n k rfl)

/-- A write of CTL that is refused raises ILLEGAL_OP and changes no channel (R233). -/
theorem refuseCtl_refuses (o : Org) (i : ChanId) (v : Word) (s : State) : (refuseCtl o i v s).flt.getLsbD 0x14 = true ∧
    (refuseCtl o i v s).hub = s.hub ∧ (refuseCtl o i v s).churns = s.churns := by
  refine ⟨raise_bit _ _ _ (by decide), ?_, ?_⟩ <;> rw [refuseCtl, refuseWrite_frame]

/-- A command of a channel that its state refuses. -/
theorem chan_refuses (hd : Does c s (f s)) (hf : f s = refuseCtl o i v s) :
    ∃ x, Does c s x ∧ x.flt.getLsbD 0x14 = true ∧ x.hub = s.hub ∧ x.churns = s.churns :=
  ⟨f s, hd, hf ▸ refuseCtl_refuses o i v s⟩

/-- GO on a channel that the program or the system owns (R213). -/
theorem chanGoOp_notOwned (h : hostOwned s i = false) : chanGoOp o i v s = refuseCtl o i v s := by
  simp only [chanGoOp, h, Bool.not_false, if_true]

/-- GO on an idle channel of the host (R233). -/
theorem chanGoOp_idle (h : hostOwned s i = true) (hc : (chanAt s i).st = .idle) : chanGoOp o i v s = chanLaunch i .none s := by
  simp only [chanGoOp, h, hc, Bool.not_true, Bool.false_eq_true, if_false]

/-- GO on a channel that works: it is held, unless one is held already (R233). -/
theorem chanGoOp_works (h : hostOwned s i = true) (hc : (chanAt s i).st = .queued ∨ (chanAt s i).st = .active) :
    chanGoOp o i v s = if (chanAt s i).pend then refuseCtl o i v s else modChan i (fun c => { c with pend := true }) s := by
  rcases hc with hc | hc <;> simp only [chanGoOp, h, hc, Bool.not_true, Bool.false_eq_true, if_false]

/-- GO on a channel that has stopped or stops (R233). -/
theorem chanGoOp_stopped (h : hostOwned s i = true) (hc : (chanAt s i).st = .halted ∨ (chanAt s i).st = .aborting) :
    chanGoOp o i v s = refuseCtl o i v s := by
  rcases hc with hc | hc <;> simp only [chanGoOp, h, hc, Bool.not_true, Bool.false_eq_true, if_false]

/-- RESUME, CLR and ABORT on a system channel (R213). -/
theorem chanOps_system (h : isSystem i = true) (o : Org) (v : Word) (s : State) : chanResumeOp o i v s = refuseCtl o i v s ∧
    chanClrOp o i v s = refuseCtl o i v s ∧ chanAbortOp o i v s = refuseCtl o i v s := ⟨if_pos h, if_pos h, if_pos h⟩

/-- RESUME on a channel that is not HALTED (R233). -/
theorem chanResumeOp_notHalted (h : (chanAt s i).st ≠ .halted) : chanResumeOp o i v s = refuseCtl o i v s := by
  cases hc : (chanAt s i).st with
  | halted => exact absurd hc h
  | _ => simp only [chanResumeOp, hc, ite_self]

/-- RESUME on a HALTED channel queues it, to go on from where it stopped (R230, R233). -/
theorem chanResumeOp_halted (hs : isSystem i = false) (hc : (chanAt s i).st = .halted) : chanResumeOp o i v s =
    enqueueChan i (modChan i (fun c => { c with x := resumeX s i, runs := c.runs + 1 }) s) := by
  simp only [chanResumeOp, hs, hc, Bool.false_eq_true, if_false]

/-- A transfer resumes from its position, unless it seals for a peer (R230). -/
theorem resumeX_base (h : (chanAt s i).x.cover ≠ .sealPeer) :
    (resumeX s i).base = chanLen (chanAt s i) - (chanAt s i).resid.toNat := if_neg h

/-- CLR on an idle channel (R233). -/
theorem chanClrOp_idle (hs : isSystem i = false) (hc : (chanAt s i).st = .idle) : chanClrOp o i v s = s := by
  simp only [chanClrOp, hs, hc, Bool.false_eq_true, if_false]

/-- CLR on a HALTED channel (R233). -/
theorem chanClrOp_halted (hs : isSystem i = false) (hc : (chanAt s i).st = .halted) :
    chanClrOp o i v s = hmvEnd i (modChan i (fun c => { c with st := .idle }) s) := by
  simp only [chanClrOp, hs, hc, Bool.false_eq_true, if_false]

/-- CLR on a channel that works (R233). -/
theorem chanClrOp_works (hs : isSystem i = false)
    (hc : (chanAt s i).st = .queued ∨ (chanAt s i).st = .active ∨ (chanAt s i).st = .aborting) :
    chanClrOp o i v s = refuseCtl o i v s := by
  rcases hc with hc | hc | hc <;> simp only [chanClrOp, hs, hc, Bool.false_eq_true, if_false]

/-- ABORT on a channel that has no transfer to stop (R233). -/
theorem chanAbortOp_still (hs : isSystem i = false) (hc : (chanAt s i).st = .idle ∨ (chanAt s i).st = .aborting) :
    chanAbortOp o i v s = s := by
  rcases hc with hc | hc <;> simp only [chanAbortOp, hs, hc, Bool.false_eq_true, if_false]

/-- ABORT on a HALTED channel (R233). -/
theorem chanAbortOp_halted (hs : isSystem i = false) (hc : (chanAt s i).st = .halted) :
    chanAbortOp o i v s = hmvEnd i (modChan i (fun c => { c with st := .idle, abt := true }) s) := by
  simp only [chanAbortOp, hs, hc, Bool.false_eq_true, if_false]

/-- ABORT on a QUEUED channel ends its transfer, and the job it was queued for (R232, R270, R271). -/
theorem chanAbortOp_queued (hs : isSystem i = false) (hc : (chanAt s i).st = .queued) : chanAbortOp o i v s =
    jobEnd i false (hmvEnd i
      (modChan i (fun c => { c with st := .idle, abt := true, resid := c.act.len.setWidth 40, pend := false }) s)) := by
  simp only [chanAbortOp, hs, hc, Bool.false_eq_true, if_false]

/-- ABORT on an ACTIVE channel stops its transfer after the current burst (R232). -/
theorem chanAbortOp_active (hs : isSystem i = false) (hc : (chanAt s i).st = .active) :
    chanAbortOp o i v s = moversGo (modChan i (fun c => { c with st := .aborting }) s) := by
  simp only [chanAbortOp, hs, hc, Bool.false_eq_true, if_false]

end Sys2Proof.Machine
end

section
/-! The commands of a mover channel. -/

namespace Sys2Proof.Machine

/-- Settles O47: each command is its operation, by the channel's state; what it leaves in the channel is the change it makes there. -/
theorem channelCommands : Obligations.ChannelCommands := by
  intro s o i hl ha c refused
  have hgo : Does (.go o i) s (chanGoOp o i 1 s) := chanGate_awake hl ha
  have hresume : Does (.resume o i) s (chanResumeOp o i 2 s) := chanGate_awake hl ha
  have hclr : Does (.clr o i) s (chanClrOp o i 4 s) := chanGate_awake hl ha
  have habort : Does (.abort o i) s (chanAbortOp o i 8 s) := chanGate_awake hl ha
  refine ⟨fun hn => chan_refuses hgo (chanGoOp_notOwned hn), fun hn => ⟨fun hc => ?goIdle, fun hc => ⟨fun hp => ?goTwice, fun hp => ?goHeld⟩,
      fun hc => chan_refuses hgo (chanGoOp_stopped hn hc)⟩, fun hs => ?system, fun hs =>
    ⟨fun hc => chan_refuses hresume (chanResumeOp_notHalted hc), fun hc => ?resumeHalted, fun hc => ?clrIdle, fun hc => ?clrHalted,
      fun hc => chan_refuses hclr (chanClrOp_works hs hc), fun hc => ?abortStill, fun hc => ?abortHalted, fun hc => ?abortQueued,
      fun hc => ?abortActive⟩⟩
  case goIdle =>
    rw [chanGoOp_idle hn hc] at hgo
    exact ⟨_, hgo, chanAt_chanLaunch .., chanLaunch_stamp ..⟩
  case goTwice => exact chan_refuses hgo ((chanGoOp_works hn hc).trans (if_pos hp))
  case goHeld =>
    rw [chanGoOp_works hn hc, if_neg (ne_true_of_eq_false hp)] at hgo
    exact ⟨_, hgo, chanAt_modChan ..⟩
  case system =>
    obtain ⟨hr, -, -⟩ := chanOps_system hs o 2 s
    obtain ⟨-, hk, -⟩ := chanOps_system hs o 4 s
    obtain ⟨-, -, hx⟩ := chanOps_system hs o 8 s
    exact ⟨chan_refuses hresume hr, chan_refuses hclr hk, chan_refuses habort hx⟩
  case resumeHalted =>
    rw [chanResumeOp_halted hs hc] at hresume
    refine ⟨_, hresume, ?_⟩
    rw [chanAt_enqueueChan_modChan]
    exact ⟨rfl, resumeX_base, rfl⟩
  case clrIdle => rwa [chanClrOp_idle hs hc] at hclr
  case clrHalted =>
    rw [chanClrOp_halted hs hc] at hclr
    exact ⟨_, hclr, chanAt_modChan ..⟩
  case abortStill => rwa [chanAbortOp_still hs hc] at habort
  case abortHalted =>
    rw [chanAbortOp_halted hs hc] at habort
    exact ⟨_, habort, chanAt_modChan ..⟩
  case abortQueued =>
    rw [chanAbortOp_queued hs hc] at habort
    exact ⟨_, habort, chanAt_modChan ..⟩
  case abortActive =>
    rw [chanAbortOp_active hs hc] at habort
    exact ⟨_, habort, chanAt_modChan ..⟩

end Sys2Proof.Machine
end

section
/-! SUPPORT. What forming the interrupt requests leaves of a command's effect: two states a command can be said to leave agree there. -/

namespace Sys2Proof.Machine

variable {c : Instr} {s x y : State}

/-- Forming the interrupt requests changes no hub channel and no status bit of a fault. -/
theorem settle_hub_flt (s : State) : (settle s).hub = s.hub ∧ (settle s).flt = s.flt := by
  have h := settle_reports s
  unfold Reports at h
  constructor <;> rw [h]

/-- A command leaves the hub channels and FLT_STAT in one way. -/
theorem does_agree (hx : Does c s x) (hy : Does c s y) : x.hub = y.hub ∧ x.flt = y.flt := by
  have he : settle x = settle y := Host.Outcome.next.inj (hx.symm.trans hy)
  obtain ⟨hxh, hxf⟩ := settle_hub_flt x
  obtain ⟨hyh, hyf⟩ := settle_hub_flt y
  exact ⟨by rw [← hxh, he, hyh], by rw [← hxf, he, hyf]⟩

end Sys2Proof.Machine
end

section
/-! SUPPORT. The end of a transfer whose channel has a descriptor waiting (R226, R233). -/

namespace Sys2Proof.Machine

variable {s t : State} {i : ChanId}

/-- A channel is held in the hub or in a churn. -/
theorem chanAt_congr (hh : t.hub = s.hub) (hc : t.churns = s.churns) (i : ChanId) : chanAt t i = chanAt s i := by
  cases i with
  | hub c => rw [chanAt, chanAt, hh]
  | pail n c => rw [chanAt, chanAt, churnAt, churnAt, hc]

/-- Bytes counted in the peer regions change no channel. -/
theorem countRegions_chans (f : Region → Nat × Nat → Region) (l : SMap Nat) (s : State) :
    let t := l.foldl (fun s k => { s with regions := vset s.regions k.1 (f (vget {} s.regions k.1) k) }) s
    t.hub = s.hub ∧ t.churns = s.churns := by
  induction l generalizing s with
  | nil => exact ⟨rfl, rfl⟩
  | cons k l ih => exact ih _

/-- The bounce report changes no channel (R285). -/
theorem chanAt_bounceReport (i j : ChanId) (s : State) : chanAt (bounceReport i s) j = chanAt s j := by
  obtain ⟨hh, hc⟩ := countRegions_chans (fun g k => { g with evt := satAdd g.evt k.2 }) (chanAt s i).x.bounced s
  refine (chanAt_congr ?_ ?_ j).trans (chanAt_congr hh hc j) <;> (simp only [bounceReport]; repeat' split) <;> rfl

/-- Only a descriptor that hmv named has words written back (R226). -/
theorem hmvEnd_noJob (h : (chanAt s i).job = .none) : hmvEnd i s = s := by simp only [hmvEnd, h]

/-- Only a ring's channel has a command that learns of its end. -/
theorem jobEnd_noJob {bad : Bool} (h : (chanAt s i).job = .none) : jobEnd i bad s = s := by simp only [jobEnd, h]

/-- A transfer of host software or of the program that is done ends (R226). -/
theorem does_transferComplete (hl : live s = true) (hs : isSystem i = false) (hj : (chanAt s i).job = .none)
    (hd : xferDone s (chanNo i) = true) : Does (.transferComplete i) s (transferEnd i s) := by
  refine (inner_live hl _).trans ?_
  simp only [hj, hd, hs, Bool.not_false, Bool.and_self, if_true, Bool.false_eq_true, if_false]

/-- The descriptor that waits is the next transfer's, and the shadow keeps what its registers hold of it (R9, R226, R233). -/
theorem shadow_transferEnd (hj : (chanAt s i).job = .none) (hp : (chanAt s i).pend = true) :
    (chanAt (transferEnd i s) i).sh = (chanAt s i).sh.stored := by
  have ht : chanAt (bounceReport i (modChan i (fun c => { c with st := .idle, done := true, resid := 0 }) s)) i =
      { chanAt s i with st := .idle, done := true, resid := 0 } := (chanAt_bounceReport ..).trans (chanAt_modChan ..)
  have htj := (congrArg Chan.job ht).trans hj
  have htp := (congrArg Chan.pend ht).trans hp
  simp only [transferEnd, hmvEnd_noJob htj, jobEnd_noJob htj, htp, if_true, chanAt_enqueueChan_modChan]
  rw [ht]

end Sys2Proof.Machine
end

section
/-! The events of a mover channel. -/

namespace Sys2Proof.Machine

/-- A block that works, with hub channel 33 at the end of a transfer, and a chained descriptor whose shadow has a reserved bit of LEN set. -/
def chainedReserved : State :=
  { State.reset with
    sys := { State.reset.sys with cold := false, phase := 8, lock := true, mode := 1 }
    hub := vset State.reset.hub 33 { st := .active, pend := true, sh := { len := 2 ^ 40 } } }

/-- Refutes O48: its last clause says that TRANSFER_COMPLETE with a descriptor waiting leaves the shadow as it was, for every state, reached
or not. The model launches the chained descriptor as GO does, so the shadow keeps only what its registers hold (`shadow_transferEnd`, R9);
the two differ where the shadow has a reserved bit set. The clause lacks the `sh := c.sh.stored` that O47 has for GO. -/
theorem not_channelEvents : ¬Obligations.ChannelEvents := by
  intro h
  obtain ⟨-, -, -, -, -, -, -, -, -, -, -, -, hdone⟩ := h chainedReserved (.hub 33) rfl
  have hd : xferDone chainedReserved 33 = true := by decide
  obtain ⟨-, hchained⟩ := hdone hd rfl rfl
  obtain ⟨x, hx, hc⟩ := hchained rfl
  obtain ⟨hhub, -⟩ := does_agree hx (does_transferComplete rfl rfl rfl hd)
  have hsh := calc (chanAt chainedReserved (.hub 33)).sh.stored
    _ = (chanAt (transferEnd (.hub 33) chainedReserved) (.hub 33)).sh := (shadow_transferEnd rfl rfl).symm
    _ = (chanAt x (.hub 33)).sh := by rw [chanAt, chanAt, hhub]
    _ = (chanAt chainedReserved (.hub 33)).sh := by rw [hc]
  exact absurd hsh (by decide)

end Sys2Proof.Machine
end

section
/-! SUPPORT. A write of SYS_CTL with LEAVE = 1 before READY, and a record of the image that is refused (R346, R368). -/

namespace Sys2Proof.Machine

variable {s : State} {o : Org} {r : Reg} {v : Word} {off : BitVec 26}

/-- A write of SYS_CTL with LEAVE = 1 reaches the block before READY while fclk runs (R368). -/
theorem does_registerWrite_early (hoff : off.toNat / 8 * 8 = Reg.off .sysCtl) (he : leaveEarly o v s = true) (hf : fclkOn s = true) :
    Does (.registerWrite o off v) s (regWrite o .sysCtl v s) := by
  show execRegisterWrite o off v s = _
  simp only [execRegisterWrite, hoff, leaveGate, he, hf, beq_self_eq_true, if_true]
  rfl

/-- A write of the image that would be refused is skipped (R346). -/
theorem regWrite_image_refused (h : o.origin = .image)
    (hr : writeRefused s (logIf o r s (regOp o r v (v &&& sizeMask o.size) s)) = true) :
    regWrite o r v s = imageSkip o (Reg.off r) (regVal s r) v s := by
  simp only [regWrite, h, bne_self_eq_false, Bool.false_eq_true, if_false, hr, if_true]

/-- A record that is skipped raises no fault (R346). -/
theorem imageSkip_flt (off : Nat) (old : Word) : (imageSkip o off old v s).flt = s.flt := rfl

end Sys2Proof.Machine
end

section
/-! Resets and start-up. -/

namespace Sys2Proof.Machine

/-- A block in start-up, in the phase after the image's, with fclk running and no fault recorded. -/
def startingUp : State := { State.reset with sys := { State.reset.sys with cold := false, phase := 5, lock := true } }

/-- Refutes O58: it says that a write of SYS_CTL with LEAVE = 1 before READY raises ILLEGAL_OP, from whatever origin. One of the
non-volatile image that would be refused is skipped, counted and logged as ignored, and raises no fault (R346). -/
theorem not_resetsAndStartUp : ¬Obligations.ResetsAndStartUp := by
  intro h
  obtain ⟨-, -, -, -, -, -, -, -, -, -, -, -, -, hleave, -⟩ := h startingUp imageOrg
  obtain ⟨-, hwrite⟩ := hleave rfl rfl (by decide) (by decide)
  have hoff : (BitVec.ofNat 26 (Reg.off .sysCtl)).toNat / 8 * 8 = Reg.off .sysCtl := by decide
  obtain ⟨x, hx, hbit, -⟩ := hwrite _ 1 hoff (by decide)
  obtain ⟨-, hflt⟩ := does_agree hx (does_registerWrite_early hoff (by decide) rfl)
  rw [hflt, regWrite_image_refused rfl (by decide), imageSkip_flt] at hbit
  exact absurd hbit (by decide)

end Sys2Proof.Machine
end

section
/-! SUPPORT. The commands on stream contexts (R241, R263). -/

namespace Sys2Proof.Machine

variable {s : State} {o : Org} {v : Word} {i e : Nat}

/-- OPEN in a block that works. -/
theorem writes_ctxOpen (h : live s = true) : Writes (.ctxOpen o) o .ctxCmd s (ctxOpenOp o 1 s) := by
  rw [Writes, Does, show exec (.ctxOpen o) s = execCtxOpen o s from rfl, execCtxOpen, hostGate_live h, done]

/-- CLOSE in a block that works. -/
theorem writes_ctxClose (h : live s = true) : Writes (.ctxClose o) o .ctxCmd s (ctxCloseOp s) := by
  rw [Writes, Does, show exec (.ctxClose o) s = execCtxClose o s from rfl, execCtxClose, hostGate_live h, done]

/-- READ in a block that works. -/
theorem writes_ctxRead (h : live s = true) : Writes (.ctxRead o) o .ctxCmd s (ctxReadOp s) := by
  rw [Writes, Does, show exec (.ctxRead o) s = execCtxRead o s from rfl, execCtxRead, hostGate_live h, done]

/-- ERR of CTX_STAT after a command (R241). -/
theorem ctxStatSet_err (h : e < 16) : fld (ctxStatSet e s).ctxStat 11 8 = e := by
  simp only [ctxStatSet, pack, fld, List.foldl_cons, List.foldl_nil, BitVec.toNat_ofNat, Nat.shiftRight_eq_div_pow]
  omega

/-- CTX_STAT apart, a command's report leaves the contexts. -/
@[simp] theorem ctxStatSet_ctxs : (ctxStatSet e s).ctxs = s.ctxs := by rw [ctxStatSet]

/-- CTX_STAT apart, a command's report leaves the pairs. -/
@[simp] theorem ctxStatSet_pairs : (ctxStatSet e s).pairs = s.pairs := by rw [ctxStatSet]

/-- CTX_STAT apart, a command's report leaves the tasks. -/
@[simp] theorem ctxStatSet_tasks : (ctxStatSet e s).tasks = s.tasks := by rw [ctxStatSet]

/-- CTX_STAT apart, a command's report leaves the registers. -/
@[simp] theorem ctxStatSet_regs : (ctxStatSet e s).regs = s.regs := by rw [ctxStatSet]

/-- A context after a command's report. -/
@[simp] theorem ctxAt_ctxStatSet : ctxAt (ctxStatSet e s) i = ctxAt s i := by rw [ctxAt, ctxStatSet_ctxs, ctxAt]

/-- A pair after a command's report. -/
@[simp] theorem pairAt_ctxStatSet : pairAt (ctxStatSet e s) i = pairAt s i := by rw [pairAt, ctxStatSet_pairs, pairAt]

/-- The tasks on a context after a command's report. -/
@[simp] theorem tasksOn_ctxStatSet : tasksOn (ctxStatSet e s) i = tasksOn s i := by rw [tasksOn, ctxStatSet_tasks, tasksOn]

/-- The context an OPEN stores: the words of CTX_DATA (R241). -/
def openedCtx (s : State) : Ctx := { w := (List.range 8).map fun k => rd s (.ctxData k), st := .opened }

/-- An OPEN that is carried out (R241). -/
theorem ctxOpenOp_opens (ht : (tasksOn s (ctxSel s)).isEmpty = true) (hc : ctxCheck s (ctxSel s) (openedCtx s) = true) :
    ctxOpenOp o v s = ctxStatSet 0 (setPair (setCtx s (ctxSel s) (openedCtx s)) (openedCtx s).sem {}) := by
  rw [openedCtx] at hc
  rw [ctxOpenOp, if_neg (by simp [ht]), if_neg (by simpa using hc), openedCtx]

/-- An OPEN that is refused: ERR is 2 with work on the context, else 1 (R241). -/
theorem ctxOpenOp_refused (h : (tasksOn s (ctxSel s)).isEmpty = false ∨ ctxCheck s (ctxSel s) (openedCtx s) = false) :
    ctxOpenOp o v s = refuseWrite o (Reg.off .ctxCmd) 0 v (ctxStatSet (if (tasksOn s (ctxSel s)).isEmpty then 1 else 2) s) := by
  cases ht : (tasksOn s (ctxSel s)).isEmpty with
  | false => rw [ctxOpenOp, if_pos (by simp [ht]), if_neg Bool.false_ne_true]
  | true =>
    have hc := h.resolve_left (by simp [ht])
    rw [openedCtx] at hc
    rw [ctxOpenOp, if_neg (by simp [ht]), if_pos (by simpa using hc), if_pos rfl]

/-- What an OPEN that is carried out leaves (R241). -/
theorem ctxOpenOp_leaves (ht : (tasksOn s (ctxSel s)).isEmpty = true) (hc : ctxCheck s (ctxSel s) (openedCtx s) = true)
    (hctxs : mwf ({} : Ctx) s.ctxs = true) (hpairs : mwf ({} : Pair) s.pairs = true) :
    let x := ctxOpenOp o v s
    ctxAt x (ctxSel s) = openedCtx s ∧ (∀ j, j ≠ ctxSel s → ctxAt x j = ctxAt s j) ∧ pairAt x (openedCtx s).sem = {} ∧
      (∀ p, p ≠ (openedCtx s).sem → pairAt x p = pairAt s p) ∧ fld x.ctxStat 11 8 = 0 := by
  simp only [ctxOpenOp_opens ht hc, ctxAt_ctxStatSet, pairAt_ctxStatSet]
  exact ⟨mget_mset_same hctxs, fun j hj => mget_mset_ne hj, mget_mset_same hpairs, fun p hp => mget_mset_ne hp, ctxStatSet_err (by decide)⟩

/-- What an OPEN that is refused leaves (R241). -/
theorem ctxOpenOp_refuses (h : (tasksOn s (ctxSel s)).isEmpty = false ∨ ctxCheck s (ctxSel s) (openedCtx s) = false) :
    let x := ctxOpenOp o v s
    x.ctxs = s.ctxs ∧ x.pairs = s.pairs ∧ x.flt.getLsbD 0x14 = true ∧
      fld x.ctxStat 11 8 = (if (tasksOn s (ctxSel s)).isEmpty then 1 else 2) := by
  have herr : (if (tasksOn s (ctxSel s)).isEmpty then 1 else 2) < 16 := by split <;> decide
  dsimp only
  rw [ctxOpenOp_refused h]
  refine ⟨?_, ?_, raise_bit _ _ _ (by decide), ?_⟩ <;> rw [refuseWrite_frame]
  · simp only [ctxStatSet_ctxs]
  · simp only [ctxStatSet_pairs]
  · exact ctxStatSet_err herr

/-- The tasks on context `i` that a CLOSE aborts (R263). -/
def abortedIds (s : State) (i : Nat) : List Nat := ((tasksOn s i).filter abortable).map (·.id)

/-- A task once those numbered `ids` have been aborted. -/
def abortIn (ids : List Nat) (t : Task) : Task := if ids.contains t.id then { t with aborted := true } else t

/-- A task that is aborted keeps its op. -/
theorem abortIn_op (ids : List Nat) (t : Task) : (abortIn ids t).op = t.op := by
  unfold abortIn; split <;> rfl

/-- Context `i` CLOSED, before its tasks are told: the cause is latched if the context was OPEN, and ASTAT shows it (R263). -/
def closeNoted (i churn info : Nat) (s : State) : State :=
  setCtx (setAstat 0 (if (ctxAt s i).st == .opened then { s with strmFlt := strmWord i churn 1 info } else s)) i
    { ctxAt s i with st := .closed }

/-- Of the contexts and the tasks, this changes context `i` alone. -/
theorem closeNoted_keeps (i churn info : Nat) (s : State) :
    (closeNoted i churn info s).ctxs = (setCtx s i { ctxAt s i with st := .closed }).ctxs ∧ (closeNoted i churn info s).tasks = s.tasks := by
  unfold closeNoted
  split
  · exact ⟨rfl, rfl⟩
  · exact ⟨rfl, rfl⟩

/-- What the abort of tasks leaves of the contexts and the tasks, where CLOSE is its cause (R263). -/
theorem abortTasks_close (ids : List Nat) (i churn info : Nat) (s : State) :
    (abortTasks ids i churn 1 info s).ctxs = (setCtx s i { ctxAt s i with st := .closed }).ctxs ∧
      (abortTasks ids i churn 1 info s).tasks = s.tasks.map (abortIn ids) := by
  obtain ⟨hctxs, htasks⟩ := closeNoted_keeps i churn info s
  rw [← hctxs, ← htasks]
  cases ids with
  | nil => exact ⟨rfl, (List.map_id' _).symm⟩
  | cons a r => exact ⟨rfl, rfl⟩

/-- A CLOSE closes the context and aborts the work that R263 aborts. -/
theorem ctxCloseOp_closes (s : State) :
    (ctxCloseOp s).ctxs = (setCtx s (ctxSel s) { ctxAt s (ctxSel s) with st := .closed }).ctxs ∧
      (ctxCloseOp s).tasks = s.tasks.map (abortIn (abortedIds s (ctxSel s))) := by
  have hctxs : (setCtx (ctxStatSet 0 s) (ctxSel s) { ctxAt s (ctxSel s) with st := .closed }).ctxs
      = (setCtx s (ctxSel s) { ctxAt s (ctxSel s) with st := .closed }).ctxs := by rw [setCtx, ctxStatSet_ctxs, setCtx]
  cases ha : (tasksOn s (ctxSel s)).any abortable with
  | true =>
    obtain ⟨hc, ht⟩ := abortTasks_close (abortedIds s (ctxSel s)) (ctxSel s) 0 0 (ctxStatSet 0 s)
    rw [ctxAt_ctxStatSet] at hc
    rw [ctxStatSet_tasks] at ht
    rw [ctxCloseOp, tasksOn_ctxStatSet, if_pos ha, abortCtx, tasksOn_ctxStatSet]
    exact ⟨hc.trans hctxs, ht⟩
  | false =>
    have hids : abortedIds s (ctxSel s) = [] := by simpa [abortedIds] using ha
    have htasks : s.tasks = s.tasks.map (abortIn []) := (List.map_id' _).symm
    rw [ctxCloseOp, tasksOn_ctxStatSet, if_neg (ne_true_of_eq_false ha), ctxAt_ctxStatSet, hids, ← htasks]
    exact ⟨hctxs, by rw [setCtx_tasks, ctxStatSet_tasks]⟩

/-- Every task of those that R263 aborts is aborted. -/
theorem aborted_of_mem {t : Task} (h : t ∈ s.tasks.map (abortIn (abortedIds s i))) (hc : (opCtxs t.op).contains i = true)
    (ha : abortable t = true) : t.aborted = true := by
  obtain ⟨u, hu, rfl⟩ := List.mem_map.mp h
  rw [abortIn_op] at hc
  have hab : abortable u = true := by rwa [abortable, abortIn_op] at ha
  have hid : (abortedIds s i).contains u.id = true := by
    rw [List.contains_iff_mem]
    exact List.mem_map_of_mem (List.mem_filter.mpr ⟨List.mem_filter.mpr ⟨hu, hc⟩, hab⟩)
  rw [abortIn, if_pos hid]

/-- CTX_DATA with the first `n` words of context `x` (R241). -/
def ctxDataPut (x : Ctx) (n : Nat) (s : State) : State := (List.range n).foldl (fun s k => wr s (.ctxData k) (x.word k)) s

/-- One word more. -/
theorem ctxDataPut_succ (x : Ctx) (n : Nat) (s : State) : ctxDataPut x (n + 1) s = wr (ctxDataPut x n s) (.ctxData n) (x.word n) := by
  simp [ctxDataPut, List.range_succ]

/-- A copy to CTX_DATA leaves the contexts. -/
theorem ctxDataPut_ctxs (x : Ctx) (n : Nat) (s : State) : (ctxDataPut x n s).ctxs = s.ctxs := by
  induction n with
  | zero => rfl
  | succ n ih => rw [ctxDataPut_succ, wr_ctxs, ih]

/-- A copy to CTX_DATA keeps the registers' table in its canonical form. -/
theorem ctxDataPut_mwf (x : Ctx) (n : Nat) (h : mwf 0 s.regs = true) : mwf 0 (ctxDataPut x n s).regs = true := by
  induction n with
  | zero => exact h
  | succ n ih => rw [ctxDataPut_succ]; exact wr_mwf ih

/-- What CTX_DATA reads after the copy. -/
theorem rd_ctxDataPut (x : Ctx) {n k : Nat} (h : mwf 0 s.regs = true) (hk : k < n) : rd (ctxDataPut x n s) (.ctxData k) = x.word k := by
  induction n with
  | zero => omega
  | succ n ih =>
    rw [ctxDataPut_succ]
    by_cases hn : k = n
    · rw [hn, rd_wr (ctxDataPut_mwf x n h)]
    · rw [rd_wr_ne (by simp only [Reg.off]; omega), ih (by omega)]

/-- CTX_PROG and CTX_REL with the progress of context `x` (R241). -/
def ctxProgPut (x : Ctx) (s : State) : State := { s with ctxProg := x.pos, ctxRel := x.rel }

/-- A copy to CTX_PROG and CTX_REL leaves the contexts. -/
theorem ctxProgPut_ctxs (x : Ctx) (s : State) : (ctxProgPut x s).ctxs = s.ctxs := rfl

/-- A copy to CTX_PROG and CTX_REL leaves the storing registers. -/
theorem rd_ctxProgPut (x : Ctx) (s : State) (r : Reg) : rd (ctxProgPut x s) r = rd s r := rfl

/-- What CTX_PROG and CTX_REL hold after the copy. -/
theorem ctxProgPut_copies (x : Ctx) (s : State) : (ctxProgPut x s).ctxProg = x.pos ∧ (ctxProgPut x s).ctxRel = x.rel := ⟨rfl, rfl⟩

/-- READ copies the context to CTX_DATA, CTX_PROG and CTX_REL (R241). -/
theorem ctxReadOp_eq (s : State) :
    ctxReadOp s = ctxProgPut (ctxAt s (ctxSel s)) (ctxDataPut (ctxAt s (ctxSel s)) 8 (ctxStatSet 0 s)) := rfl

/-- What a READ leaves (R241). -/
theorem ctxReadOp_reads (h : mwf 0 s.regs = true) :
    (ctxReadOp s).ctxs = s.ctxs ∧ (∀ k, k < 8 → rd (ctxReadOp s) (.ctxData k) = (ctxAt s (ctxSel s)).word k) ∧
      (ctxReadOp s).ctxProg = (ctxAt s (ctxSel s)).pos ∧ (ctxReadOp s).ctxRel = (ctxAt s (ctxSel s)).rel := by
  have hregs : mwf 0 (ctxStatSet 0 s).regs = true := by rwa [ctxStatSet_regs]
  rw [ctxReadOp_eq, ctxProgPut_ctxs, ctxDataPut_ctxs, ctxStatSet_ctxs]
  exact ⟨rfl, fun k hk => (rd_ctxProgPut ..).trans (rd_ctxDataPut _ hregs hk), ctxProgPut_copies ..⟩

end Sys2Proof.Machine
end

section
/-! SUPPORT. Deadlines that pass, and the stripe weights (R244, R259, R260). -/

namespace Sys2Proof.Machine

variable {s : State} {o : Org} {id k h : Nat} {t : Task} {v : Word}

/-- DEADLINE_MISS in a block that works. -/
theorem does_deadlineMiss (h : live s = true) : Does (.deadlineMiss id) s (missDeadline id s) := inner_live h _

/-- A miss is recorded in PACED mode alone, for a task with a deadline and a base, and once (R259, R260). -/
theorem missDeadline_still (ht : s.tasks.find? (fun t => t.id == id) = some t)
    (h : s.sys.mode ≠ 2 ∨ t.deadline = 0 ∨ t.base = none ∨ t.missed = true) : missDeadline id s = s := by
  simp only [missDeadline, ht]
  exact if_pos (by simpa [or_assoc] using h)

/-- The state with a miss of the task `id` noted and counted, before its fault (R260). -/
def missNoted (id : Nat) (w : Word) (s : State) : State :=
  { s with tasks := lmod (fun x => x.id == id) (fun x => { x with missed := true }) s.tasks, paceEvt := satAdd s.paceEvt 1, paceMiss := w }

/-- A miss is noted and counted, and raises its fault (R260). -/
theorem missDeadline_records (ht : s.tasks.find? (fun t => t.id == id) = some t) (hm : s.sys.mode = 2) (hd : t.deadline ≠ 0)
    (hb : t.base.isSome = true) (hn : t.missed = false) : ∃ r w, missDeadline id s = raise 9 r w (missNoted id w s) := by
  have hb : t.base.isNone = false := by simpa [← Option.isSome_iff_ne_none] using hb
  simp only [missDeadline, ht]
  rw [if_neg (by simp [hm, hd, hb, hn])]
  exact ⟨_, _, rfl⟩

/-- A stripe weight set in use is not written (R244). -/
theorem stripeOp_inUse (hu : setInUse s k = true) : stripeOp o k h v s = refuseReg o (.stripeWt k h) v s := if_pos hu

/-- Stripe weight set 0 is never written (R244). -/
theorem stripeOp_zero_regs : (stripeOp o 0 h v s).regs = s.regs := by
  cases hu : setInUse s 0 with
  | true => rw [stripeOp_inUse hu]; exact (refuseReg_refuses ..).2.1
  | false => simp only [stripeOp, hu]; rfl

/-- Another stripe weight set is written while it is not in use (R244). -/
theorem stripeOp_free (hk : k ≠ 0) (hu : setInUse s k = false) :
    stripeOp o k h v s = wr s (.stripeWt k h) ((v &&& sizeMask o.size) ||| (rd s (.stripeWt k h) &&& ~~~ sizeMask o.size)) := by
  have hw : (Reg.desc (.stripeWt k h)).rw &&& sizeMask o.size = sizeMask o.size := by
    simp only [Reg.desc, if_neg hk]
    cases o.size <;> decide
  have hs : stripeOp o k h v s = plainWrite o (.stripeWt k h) v s := by simp only [stripeOp, hu, if_neg hk]; rfl
  rw [hs, plainWrite_free rfl, stored_free rfl, hw]

end Sys2Proof.Machine
end

section
/-! Stream contexts, deadlines and stripe weights. -/

namespace Sys2Proof.Machine

/-- Settles O44: each command leaves what its equation says, and a read of the tables after it gives the clauses. -/
theorem contexts : Obligations.Contexts := by
  intro s o hl hctxs hpairs hregs i y c
  refine ⟨fun ht hc => ?opens, fun h => ?refuses, ?closes, ?reads, fun id t ht => ⟨fun hm hd hb hn => ?misses, fun h => ?passes⟩,
    fun k h v => ⟨fun hk => ?locked, fun hk hu => ?stores⟩⟩
  case opens => exact ⟨_, writes_ctxOpen hl, ctxOpenOp_leaves ht hc hctxs hpairs⟩
  case refuses => exact ⟨_, writes_ctxOpen hl, ctxOpenOp_refuses h⟩
  case closes =>
    obtain ⟨hc, ht⟩ := ctxCloseOp_closes s
    have hat (j : Nat) : ctxAt (ctxCloseOp s) j = ctxAt (setCtx s i { y with st := .closed }) j := congrArg (mget ({} : Ctx) · j) hc
    have hsame : ctxAt (ctxCloseOp s) i = { y with st := .closed } := (hat i).trans (mget_mset_same hctxs)
    refine ⟨_, writes_ctxClose hl, by rw [hsame], by rw [hsame], fun j hj => (hat j).trans (mget_mset_ne hj), ?_, ?_⟩
    · rw [ht, List.length_map]
    · rw [ht]
      exact fun t => aborted_of_mem
  case reads => exact ⟨_, writes_ctxRead hl, ctxReadOp_reads hregs⟩
  case misses =>
    obtain ⟨r, w, he⟩ := missDeadline_records ht hm hd hb hn
    refine ⟨_, does_deadlineMiss hl, ?_⟩
    rw [he]
    refine ⟨?_, raise_bit _ _ _ (by decide), _, ?_, rfl⟩ <;> rw [raise_plain _ _ _ (by decide) (by decide)]
    · rfl
    · exact find?_lmod (f := fun x => { x with missed := true }) ht fun _ hx => hx
  case passes =>
    have hd := does_deadlineMiss (id := id) hl
    rwa [missDeadline_still ht h] at hd
  case locked =>
    refine ⟨_, writes_of_regCmd hl rfl rfl, ?_, fun hu => ?_⟩
    · rcases hk with rfl | hu
      · exact stripeOp_zero_regs
      · rw [stripeOp_inUse hu]; exact (refuseReg_refuses ..).2.1
    · rw [stripeOp_inUse hu]; exact (refuseReg_refuses ..).1
  case stores =>
    have hk : k.toNat ≠ 0 := fun e => hk (BitVec.eq_of_toNat_eq e)
    exact ⟨_, writes_of_regCmd hl rfl (stripeOp_free hk hu), rd_wr hregs, fun q hq => rd_wr_ne hq⟩

end Sys2Proof.Machine
end

section
/-! SUPPORT. A dispatched op that may start, and what every start leaves (R160, R242). -/

namespace Sys2Proof.Machine

variable {s : State} {n id : Nat} {o : RunOp} {p : ChurnOp → Bool}

/-- A dispatched op of an ACTIVE churn may start when it is the first on its input contexts (R242). -/
theorem startable_some (ho : runAt s n id = some o) (hw : (churnAt s n).pwr = .active) (hp : p o.op = true)
    (hs : o.started = false) (ha : o.aborted = false) (hf : firstOn (churnAt s n) o = true) : startable s n id p = some o := by
  simp [startable, ho, hw, hp, hs, ha, hf]

/-- The command of an op that may start, in a block that works: the op starts, and the churn's units go on. -/
theorem does_start {m : BitVec 5} {c : Instr} {f : Nat → RunOp → State → State} (hl : live s = true)
    (he : exec c s = Machine.inner (startOp m.toNat id p f) s) (h : startable s m.toNat id p = some o) :
    Does c s (churnGo m.toNat (f m.toNat o s)) ∧ (churnQuantum m.toNat (f m.toNat o s) = none → Does c s (f m.toNat o s)) := by
  have hx : startOp m.toNat id p f s = churnGo m.toNat (f m.toNat o s) := by simp only [startOp, h]
  exact does_churnGo (by rw [Does, he, inner_live hl, hx])

/-- Op `o` once it has started at step `e`, refused or not. -/
def startedOp (bad : Bool) (e : Word) (o : RunOp) : RunOp := { o with started := true, refused := bad, step := e }

/-- A started op, found in its churn. -/
theorem runAt_begun (hn : n < 32) (ho : runAt s n id = some o) (bad : Bool) :
    runAt (begun n o bad s) n id = some (startedOp bad s.step.step o) := by
  rw [begun, runAt_id ho]
  exact runAt_modRun hn ho fun _ => rfl

/-- A fault of an op changes no running op. -/
theorem opFault_sameRuns (c n : Nat) (o : ChurnOp) (info : Word) (s : State) : SameRuns s (opFault c n o info s) := by
  apply sameRuns_of_churns
  show (raise c (churnRec n o) info s).churns = s.churns
  rw [raise_frame]

end Sys2Proof.Machine
end

section
/-! SUPPORT. A stream-in op that starts: its tag, and the ZERO marks of a refused pair, whose traffic changes no running op and raises no
fault (R60, R149, R156). -/

namespace Sys2Proof.Machine

variable {s t u : State} {n id : Nat} {o : RunOp}

/-- No running op, no fault and nothing of the separator differs between two states. -/
structure SameFaults (s t : State) : Prop extends SameRuns s t where
  flt_eq : t.flt = s.flt
  sep_eq : t.sep = s.sep

/-- Nothing changed. -/
theorem SameFaults.refl (s : State) : SameFaults s s := ⟨.refl s, rfl, rfl⟩

/-- One change after another. -/
theorem SameFaults.trans (h : SameFaults s t) (k : SameFaults t u) : SameFaults s u :=
  ⟨h.toSameRuns.trans k.toSameRuns, k.flt_eq.trans h.flt_eq, k.sep_eq.trans h.sep_eq⟩

/-- A list of changes. -/
theorem SameFaults.foldl {α : Type} {f : State → α → State} (h : ∀ s x, SameFaults s (f s x)) (l : List α) (s : State) :
    SameFaults s (l.foldl f s) := by
  induction l generalizing s with
  | nil => exact .refl s
  | cons x r ih => exact (h s x).trans (ih _)

/-- A change of a churn beside its running ops. -/
theorem modChurn_sameFaults {f : Churn → Churn} (n : Nat) (h : ∀ c, (f c).run = c.run) (s : State) : SameFaults s (modChurn n f s) :=
  ⟨modChurn_sameRuns n h s, rfl, rfl⟩

/-- The pick of a port's next message raises no fault. -/
theorem nextTx_faults {p : PortId} {x : TxReq} (h : nextTx p s = some (x, t)) : t.flt = s.flt ∧ t.sep = s.sep := by
  cases p with
  | mp n =>
    simp only [nextTx] at h
    split at h
    · cases h
    · simp only [Option.map_eq_some_iff, Prod.mk.injEq] at h
      obtain ⟨y, -, -, rfl⟩ := h
      exact ⟨rfl, rfl⟩
  | fp n =>
    simp only [nextTx] at h
    split at h
    · cases h
    · next e _ =>
      simp only [Option.map_eq_some_iff, Prod.mk.injEq] at h
      obtain ⟨y, -, -, rfl⟩ := h
      cases e <;> exact ⟨rfl, rfl⟩
  | hbp | pp | cp | ccp =>
    simp only [nextTx] at h
    split at h
    · cases h
    · split at h
      · cases h; exact ⟨rfl, rfl⟩
      · cases h

/-- A message that is driven raises no fault. -/
theorem drive_faults (m : Msg) (o : Option Owner) (s : State) : (drive m o s).flt = s.flt ∧ (drive m o s).sep = s.sep := by
  cases o <;> exact ⟨rfl, rfl⟩

/-- What follows an issued message raises no fault. -/
theorem issuedTx_faults (c : Option Nat) (s : State) : (issuedTx c s).flt = s.flt ∧ (issuedTx c s).sep = s.sep := by
  unfold issuedTx
  split
  · split <;> exact ⟨rfl, rfl⟩
  · exact ⟨rfl, rfl⟩

/-- All that a port can drive raises no fault. -/
theorem pump_faults (p : PortId) (k : Nat) (s : State) : (pump p k s).flt = s.flt ∧ (pump p k s).sep = s.sep := by
  induction k generalizing s with
  | zero => exact ⟨rfl, rfl⟩
  | succ k ih =>
    rw [pump]
    split
    · exact ⟨rfl, rfl⟩
    · split
      · exact ⟨rfl, rfl⟩
      · next x t h =>
        obtain ⟨nf, ns⟩ := nextTx_faults h
        obtain ⟨df, ds⟩ := drive_faults x.m x.owner t
        obtain ⟨jf, js⟩ := issuedTx_faults x.src (drive x.m x.owner t)
        obtain ⟨pf, ps⟩ := ih (issuedTx x.src (drive x.m x.owner t))
        exact ⟨by rw [pf, jf, df, nf], by rw [ps, js, ds, ns]⟩

/-- A request that has an owner, sent: on a link that is down its owner is told, and no fault is raised (R21, R390). -/
theorem send_sameFaults (m : Msg) (o : Owner) (s : State) : SameFaults s (send m (some o) s) := by
  have hf : (send m (some o) s).flt = s.flt ∧ (send m (some o) s).sep = s.sep := by
    unfold send sendBy
    split
    · exact ⟨rfl, rfl⟩
    · exact pump_faults ..
  exact ⟨send_sameRuns .., hf.1, hf.2⟩

/-- Bytes written to a stack. -/
theorem mpWrite_sameFaults (n a : Nat) (d : List Byte) (o : Owner) (s : State) : SameFaults s (mpWrite n a d o s) :=
  .foldl (fun _ _ => send_sameFaults ..) _ s

/-- A line that makes room for another (R60, R61). -/
theorem evictFor_sameFaults (n : Nat) (x : MapLine) (s : State) : SameFaults s (evictFor n x s) := by
  unfold evictFor
  dsimp only
  split
  · exact .refl s
  · split
    · exact .refl s
    · split
      · exact .refl s
      · next v _ =>
        have hc : SameFaults s (setChurn s n { churnAt s n with lines := (churnAt s n).lines.filter fun l => l.key != v.key }) :=
          modChurn_sameFaults (f := fun c => { c with lines := c.lines.filter fun l => l.key != v.key }) n (fun _ => rfl) s
        split
        · exact hc.trans (mpWrite_sameFaults ..)
        · exact hc

/-- A line that enters the cache (R60). -/
theorem linePut_sameFaults (n : Nat) (x : MapLine) (s : State) : SameFaults s (linePut n x s) := by
  refine (modChurn_sameFaults n (fun c => ?_) s).trans (evictFor_sameFaults n x _)
  rfl

/-- A count of blocks. -/
theorem codecCount_sameFaults (n f k : Nat) (s : State) : SameFaults s (codecCount n f k s) := by
  refine modChurn_sameFaults n (fun c => ?_) s
  rfl

/-- A map word that is written (R60). -/
theorem mapStore_sameFaults (n e i : Nat) (w : Word) (s : State) : SameFaults s (mapStore n e i w s) := by
  unfold mapStore
  split
  · exact .refl s
  · dsimp only
    split
    · exact linePut_sameFaults ..
    · have hc := modChurn_sameFaults (f := fun c => { c with mapPend := c.mapPend ++ [(e, i, w)] }) n (fun _ => rfl) s
      split
      · exact hc
      · exact hc.trans (send_sameFaults ..)

/-- The ZERO marks that a refused stream-in op leaves for the blocks of its share, each counted. -/
def zeroMarks (n : Nat) (o : RunOp) (s : State) : State :=
  (List.range (cdiv (sinStored s n o.op) 4096)).foldl
    (fun s i => codecCount n 1 1 (mapStore n o.op.desc.entry i (pack [(62, 2)]) s)) s

/-- The marks change no running op and raise no fault. -/
theorem zeroMarks_sameFaults (n : Nat) (o : RunOp) (s : State) : SameFaults s (zeroMarks n o s) :=
  .foldl (fun s i => (mapStore_sameFaults n o.op.desc.entry i _ s).trans (codecCount_sameFaults ..)) _ s

/-- The entry takes the generation of its op as its tag, or the generation the op did not get is reported (R149). -/
def sinTagged (n : Nat) (o : RunOp) (s : State) : State :=
  match o.op.gen with
  | some g => modChurn n (setTag o.op.desc.entry (.gen g)) s
  | none => if o.op.noGen then opFault 5 n o.op 0 s else s

/-- A tag that is set changes no running op. -/
theorem setTag_run (e : Nat) (g : Tag) (c : Churn) : (setTag e g c).run = c.run := by
  have hr (b : Bool) (g : BitVec 4) (c : Churn) : (refGen g b c).run = c.run := rfl
  unfold setTag
  dsimp only
  split <;> split <;> simp only [hr]

/-- The tag of a stream-in op changes no running op. -/
theorem sinTagged_sameRuns (n : Nat) (o : RunOp) (s : State) : SameRuns s (sinTagged n o s) := by
  unfold sinTagged
  split
  · exact modChurn_sameRuns n (setTag_run _ _) s
  · split
    · exact opFault_sameRuns ..
    · exact .refl s

/-- A stream-in op whose pair is one of R156 starts. -/
theorem sinStart_legal (h : sinLegal (ctxAt s o.op.desc.ctx) o.op = true) : sinStart n o s = sinTagged n o (begun n o false s) := by
  simp only [sinStart, h]
  rfl

/-- CH_FMT_EVT counts a refused pair (R156). -/
def fmtRefused (n : Nat) (s : State) : State := modChurn n (fun c => { c with fmtEvt := satFld c.fmtEvt 15 0 1 }) s

/-- That count changes no running op. -/
theorem fmtRefused_sameRuns (n : Nat) (s : State) : SameRuns s (fmtRefused n s) := by
  refine modChurn_sameRuns n (fun c => ?_) s
  rfl

/-- A stream-in op of another pair is refused (R156). -/
theorem sinStart_illegal (h : sinLegal (ctxAt s o.op.desc.ctx) o.op = false) :
    sinStart n o s = zeroMarks n o (opFault 0x14 n o.op 0xF0 (fmtRefused n (sinTagged n o (begun n o true s)))) := by
  simp only [sinStart, h]
  rfl

/-- What the start of a stream-in op of another pair than those of R156 leaves. -/
theorem sinStart_refuses (hn : n < 32) (ho : runAt s n id = some o) (h : sinLegal (ctxAt s o.op.desc.ctx) o.op = false) :
    ((sinStart n o s).flt.getLsbD 0x14 = true ∧ (sinStart n o s).sep.astat.getLsbD 0 = true) ∧
      runAt (sinStart n o s) n id = some (startedOp true s.step.step o) := by
  let y := fmtRefused n (sinTagged n o (begun n o true s))
  have hz := zeroMarks_sameFaults n o (opFault 0x14 n o.op 0xF0 y)
  have hy : SameRuns (begun n o true s) y := (sinTagged_sameRuns ..).trans (fmtRefused_sameRuns ..)
  have hr := (hy.trans (opFault_sameRuns 0x14 n o.op 0xF0 y)).trans hz.toSameRuns
  obtain ⟨hflt, hast, -⟩ := opFault_effect (c := 0x14) (by decide) n o.op 0xF0 y
  rw [sinStart_illegal h, hz.flt_eq, hz.sep_eq, hr.runAt_eq]
  exact ⟨⟨hflt, hast⟩, runAt_begun hn ho true⟩

end Sys2Proof.Machine
end

section
/-! SUPPORT. The start of a stream-out and of a cop op (R181, R182, R187, R188). -/

namespace Sys2Proof.Machine

variable {s : State} {n id : Nat} {o : RunOp}

/-- A count of CH_ARITH_EVT changes no running op. -/
theorem arithCount_sameRuns (n f k : Nat) (s : State) : SameRuns s (arithCount n f k s) := by
  refine modChurn_sameRuns n (fun c => ?_) s
  rfl

/-- A stream-out op whose chain is legal starts. -/
theorem soutStart_legal (h : chainLegal s n o = true) : soutStart n o s = begun n o false s := by
  simp only [soutStart, h]
  rfl

/-- A stream-out op of another chain is refused, with ILLEGAL_OP (R182). -/
theorem soutStart_illegal (h : chainLegal s n o = false) :
    soutStart n o s = opFault 0x14 n o.op 0xF1 (arithCount n 0 1 (begun n o true s)) := by
  simp only [soutStart, h]
  rfl

/-- What the start of a stream-out op whose chain is not legal leaves. -/
theorem soutStart_refuses (hn : n < 32) (ho : runAt s n id = some o) (h : chainLegal s n o = false) :
    ((soutStart n o s).flt.getLsbD 0x14 = true ∧ (soutStart n o s).sep.astat.getLsbD 0 = true) ∧
      runAt (soutStart n o s) n id = some (startedOp true s.step.step o) := by
  have hr : SameRuns (begun n o true s) (opFault 0x14 n o.op 0xF1 (arithCount n 0 1 (begun n o true s))) :=
    (arithCount_sameRuns ..).trans (opFault_sameRuns ..)
  obtain ⟨hflt, hast, -⟩ := opFault_effect (c := 0x14) (by decide) n o.op 0xF1 (arithCount n 0 1 (begun n o true s))
  rw [soutStart_illegal h, hr.runAt_eq]
  exact ⟨⟨hflt, hast⟩, runAt_begun hn ho true⟩

/-- A cop op that can act starts. -/
theorem copStart_legal (h : copLegal o.op = true) : copStart n o s = begun n o false s := by
  simp only [copStart, h]
  rfl

/-- The commands that start a cop op are events inside the block, for the code each names (R187). -/
theorem exec_copOp {j : Nat} {c : Instr} {m : BitVec 5} (h : (j, c) ∈ [(1, Instr.ldvec m id), (2, .rowdot m id), (3, .rowstat m id)]) :
    exec c s = Machine.inner (startOp m.toNat id (isCop j) copStart) s := by
  simp only [List.mem_cons, Prod.mk.injEq, List.not_mem_nil, or_false] at h
  rcases h with ⟨rfl, rfl⟩ | ⟨rfl, rfl⟩ | ⟨rfl, rfl⟩ <;> rfl

end Sys2Proof.Machine
end

section
/-! SUPPORT. The start of an update op, and the skip it records where it is refused or its region is FROZEN (R298, R299, R303). -/

namespace Sys2Proof.Machine

variable {s : State} {n id : Nat} {o : RunOp}

/-- Whether the rule an update op copied, its schedule and its tables are legal (R299). -/
def updLegal (s : State) (n : Nat) (o : RunOp) : Bool :=
  ruleLegal o.rule ((updPrm s o.op).mt != 0) ((updPrm s o.op).vt != 0) && s.step.schEn.getLsbD (fld (nth o.rule 6) 6 4)
    && (ruleTabs o.rule (updPrm s o.op).emb).all fun t => (bankImg s n o t).isSome

/-- An update op that is not legal, by the rule, the schedule or a table. -/
theorem updLegal_eq_false : updLegal s n o = false ↔
    ruleLegal o.rule ((updPrm s o.op).mt != 0) ((updPrm s o.op).vt != 0) = false ∨
      s.step.schEn.getLsbD (fld (nth o.rule 6) 6 4) = false ∨ ∃ t ∈ ruleTabs o.rule (updPrm s o.op).emb, bankImg s n o t = none := by
  rw [updLegal, Bool.and_eq_false_iff, Bool.and_eq_false_iff, or_assoc, List.all_eq_false]
  simp only [Bool.not_eq_true, Option.isSome_eq_false_iff, Option.isNone_iff_eq_none]

/-- The skip of an op on region `p`: FROZEN_SKIP, or its count alone where FIRQ is 0 (R303, R376). -/
def updSkip (n : Nat) (o : ChurnOp) (p : Prm) (s : State) : State :=
  if p.firq then raise 0xF (churnRec n o) (BitVec.ofNat 64 p.k) s else countFault 0xF s

/-- An update op that is legal, on a region that is not FROZEN, starts. -/
theorem updStart_acts (h : updLegal s n o = true) (hf : (updPrm s o.op).frozen = false) : updStart n o s = begun n o false s := by
  unfold updLegal at h
  simp only [updStart, h, hf]
  rfl

/-- An update op that is legal, on a FROZEN region, is skipped (R303). -/
theorem updStart_frozen (h : updLegal s n o = true) (hf : (updPrm s o.op).frozen = true) :
    updStart n o s = updSkip n o.op (updPrm s o.op) (begun n o true s) := by
  unfold updLegal at h
  simp only [updStart, h, hf]
  rfl

/-- An update op that is not legal is refused, and skipped (R299, R303). -/
theorem updStart_illegal (h : updLegal s n o = false) :
    updStart n o s = updSkip n o.op (updPrm s o.op) (opFault 0x14 n o.op 0xF3 (begun n o true s)) := by
  unfold updLegal at h
  simp only [updStart, h]
  rfl

/-- A skip leaves the churns, and clears no fault and no bit of ASTAT. -/
theorem updSkip_keeps (n : Nat) (o : ChurnOp) (p : Prm) (s : State) : (updSkip n o p s).churns = s.churns ∧
    (∀ k, s.flt.getLsbD k = true → (updSkip n o p s).flt.getLsbD k = true) ∧ (updSkip n o p s).sep = s.sep := by
  unfold updSkip
  split
  · exact ⟨by rw [raise_frame], fun k h => raise_keeps _ _ s h, by rw [raise_plain _ _ s (by decide) (by decide)]⟩
  · exact ⟨rfl, fun _ h => h, rfl⟩

/-- A skip with FIRQ set raises FROZEN_SKIP. -/
theorem updSkip_raises {p : Prm} {o : ChurnOp} (h : p.firq = true) : (updSkip n o p s).flt.getLsbD 0xF = true := by
  rw [updSkip, if_pos h]
  exact raise_bit _ _ s (by decide)

/-- A skip with FIRQ clear is counted alone (R376). -/
theorem updSkip_counts {p : Prm} {o : ChurnOp} (h : p.firq = false) :
    (vget {} (updSkip n o p s).flts 0xF).cnt = satAdd (vget {} s.flts 0xF).cnt 1 ∧ (updSkip n o p s).flt = s.flt := by
  rw [updSkip, if_neg (ne_true_of_eq_false h)]
  refine ⟨?_, rfl⟩
  rw [countFault, vget_vset_same _ _ _ _ (by decide)]

/-- ILLEGAL_OP of an op leaves the record and the bit of FROZEN_SKIP. -/
theorem illegalOp_keepsSkip (n : Nat) (o : ChurnOp) (info : Word) (s : State) :
    vget {} (opFault 0x14 n o info s).flts 0xF = vget {} s.flts 0xF ∧ (opFault 0x14 n o info s).flt.getLsbD 0xF = s.flt.getLsbD 0xF := by
  have hflt : (opFault 0x14 n o info s).flt = s.flt ||| BitVec.ofNat 24 (2 ^ 0x14) := rfl
  refine ⟨vget_vset_ne _ _ _ _ _ (by decide), ?_⟩
  rw [hflt, BitVec.getLsbD_or]
  simp

/-- What a skipped update op leaves: the op started as refused, and its skip recorded on top of a state that has FROZEN_SKIP as before,
and ILLEGAL_OP where the op is not legal (R299, R303). -/
theorem updStart_skips (h : updLegal s n o = false ∨ (updPrm s o.op).frozen = true) :
    ∃ z, updStart n o s = updSkip n o.op (updPrm s o.op) z ∧ z.churns = (begun n o true s).churns ∧
      (vget {} z.flts 0xF = vget {} s.flts 0xF ∧ z.flt.getLsbD 0xF = s.flt.getLsbD 0xF) ∧
      (updLegal s n o = false → z.flt.getLsbD 0x14 = true ∧ z.sep.astat.getLsbD 0 = true) := by
  cases hu : updLegal s n o with
  | false =>
    obtain ⟨hflt, hast, hchurns⟩ := opFault_effect (c := 0x14) (by decide) n o.op 0xF3 (begun n o true s)
    exact ⟨_, updStart_illegal hu, hchurns, illegalOp_keepsSkip .., fun _ => ⟨hflt, hast⟩⟩
  | true =>
    have hf := h.resolve_left (by simp [hu])
    exact ⟨_, updStart_frozen hu hf, rfl, ⟨rfl, rfl⟩, fun e => by simp at e⟩

/-- A started update op, found in its churn: it is refused where it is not legal, or its region is FROZEN (R299, R303). -/
theorem runAt_updStart (hn : n < 32) (ho : runAt s n id = some o) :
    runAt (updStart n o s) n id = some (startedOp (!updLegal s n o || (updPrm s o.op).frozen) s.step.step o) := by
  by_cases h : updLegal s n o = false ∨ (updPrm s o.op).frozen = true
  · obtain ⟨z, hz, hchurns, -⟩ := updStart_skips h
    obtain ⟨hkeep, -⟩ := updSkip_keeps n o.op (updPrm s o.op) z
    have hbad : (!updLegal s n o || (updPrm s o.op).frozen) = true := by simpa using h
    rw [hbad, ← runAt_begun hn ho true, hz]
    exact (sameRuns_of_churns (hkeep.trans hchurns)).runAt_eq n id
  · obtain ⟨hu, hf⟩ := not_or.mp h
    rw [Bool.not_eq_false] at hu
    rw [Bool.not_eq_true] at hf
    rw [updStart_acts hu hf, runAt_begun hn ho, hu, hf]
    rfl

end Sys2Proof.Machine
end

section
/-! The starts of dispatched ops. -/

namespace Sys2Proof.Machine

/-- Settles O40: each start is one equation of its kind of op, legal or refused, and each clause reads the state it leaves. -/
theorem churnOpStarts : Obligations.ChurnOpStarts := by
  intro s n id o hl k rdy runs refused
  have hk : k < 32 := n.isLt
  refine ⟨?streamIn, ?streamOut, ?cop, ?update⟩
  case streamIn =>
    rintro ⟨ho, hw, hp, hs, ha, hf⟩
    refine ⟨sinStart k o s, does_start hl rfl (startable_some ho hw hp hs ha hf), fun h hg hn => ?_, fun g h hg => ?_, fun h hg hn => ?_,
      fun h => ?_⟩
    · simp only [sinStart_legal h, sinTagged, hg, hn]; rfl
    · simp only [sinStart_legal h, sinTagged, hg]
    · obtain ⟨hflt, hast, hchurns⟩ := opFault_effect (c := 5) (by decide) k o.op 0 (begun k o false s)
      have hx : sinStart k o s = opFault 5 k o.op 0 (begun k o false s) := by
        simp only [sinStart_legal h, sinTagged, hg, hn]; rfl
      rw [hx]
      exact ⟨hchurns, hflt, hast⟩
    · obtain ⟨href, hrun⟩ := sinStart_refuses hk ho h
      exact ⟨href, _, hrun, rfl, rfl⟩
  case streamOut =>
    rintro ⟨ho, hw, hp, hs, ha, hf⟩
    exact ⟨soutStart k o s, does_start hl rfl (startable_some ho hw hp hs ha hf), soutStart_legal, soutStart_refuses hk ho⟩
  case cop =>
    rintro j c hc ⟨ho, hw, hp, hs, ha, hf⟩
    refine ⟨copStart k o s, does_start hl (exec_copOp hc) (startable_some ho hw hp hs ha hf), copStart_legal, fun h => ?_⟩
    obtain ⟨hflt, hast, hchurns⟩ := copStart_illegal (n := k) (s := s) h
    exact ⟨hchurns, hflt, hast⟩
  case update =>
    rintro ⟨ho, hw, hp, hs, ha, hf⟩ p bad
    have hbad : bad ↔ updLegal s k o = false := updLegal_eq_false.symm
    refine ⟨updStart k o s, does_start hl rfl (startable_some ho hw hp hs ha hf), ⟨_, runAt_updStart hk ho, rfl, rfl, ?_⟩,
      fun hb hz => ?_, fun hb => ?_, fun hb => ?_⟩
    · rw [hbad]
      simp [startedOp, p]
    · exact updStart_acts (by simpa [hbad] using hb) hz
    · obtain ⟨z, hz, -, -, href⟩ := updStart_skips (.inl (hbad.mp hb))
      obtain ⟨hflt, hast⟩ := href (hbad.mp hb)
      obtain ⟨-, hkeeps, hsep⟩ := updSkip_keeps k o.op (updPrm s o.op) z
      rw [hz]
      exact ⟨hkeeps _ hflt, by rwa [hsep]⟩
    · obtain ⟨z, hz, -, ⟨hrec, hbit⟩, -⟩ := updStart_skips (hb.imp_left hbad.mp)
      rw [hz]
      refine ⟨updSkip_raises, fun hq => ?_⟩
      obtain ⟨hcnt, hflt⟩ := updSkip_counts (n := k) (s := z) (o := o.op) hq
      rw [hrec] at hcnt
      exact ⟨hcnt, by rw [hflt, hbit]⟩

end Sys2Proof.Machine
end

section
/-! SUPPORT. A write of PRM_CFG (R291): what it does while the region is enabled, and while it is not. -/

namespace Sys2Proof.Machine

variable {s : State} {o : Org} {k : Nat} {v : Word}

/-- An enabled region refuses a write of PRM_CFG in an open step, and one while an update op works on it that changes more than FROZEN and
FIRQ; any other is stored. -/
theorem prmOp_on (he : (prm s k).en = true) : prmOp o (.prmCfg k) k v s =
    let old := rd s (.prmCfg k)
    let new := stored o (.prmCfg k) v s
    if (s.step.open_ = true ∨ updOn s k = true) ∧
        ¬(s.step.open_ = false ∧ new ≠ old ∧ (new ^^^ old) &&& ~~~ 0x5000000000000000 = 0) then refuseReg o (.prmCfg k) v s
    else wr s (.prmCfg k) new := by
  simp only [prmOp, he, beq_self_eq_true, Bool.true_and, Bool.not_true, Bool.and_false, Bool.false_and, Bool.false_eq_true, if_false,
    Bool.and_eq_true, Bool.or_eq_true, Bool.not_eq_true', bne_iff_ne, beq_iff_eq, ← Bool.not_eq_true, and_assoc]

/-- A region that is not enabled is checked when the write sets EN; if the check fails EN stays 0, with ILLEGAL_OP. -/
theorem prmOp_off (he : (prm s k).en = false) : prmOp o (.prmCfg k) k v s =
    let new := stored o (.prmCfg k) v s
    let kept := setFld new 63 63 0
    if bit new 63 = true ∧ prmCheck s { prm s k with cfg := new } = false then
      illegalReg (Reg.off (.prmCfg k)) (logWrite o (Reg.off (.prmCfg k)) 0 (rd s (.prmCfg k)) kept (wr s (.prmCfg k) kept))
    else wr s (.prmCfg k) new := by
  cases hb : bit (stored o (.prmCfg k) v s) 63 with
  | false => simp [prmOp, he, hb]
  | true => cases hc : prmCheck s { prm s k with cfg := stored o (.prmCfg k) v s } <;> simp [prmOp, he, hb, hc]

/-- ILLEGAL_OP of a register is raised, and no register changes. -/
theorem illegalReg_raises (off : Nat) (s : State) : (illegalReg off s).flt.getLsbD 0x14 = true ∧ (illegalReg off s).regs = s.regs := by
  refine ⟨raise_bit _ _ _ (by decide), ?_⟩
  rw [illegalReg, raise_plain _ _ _ (by decide) (by decide)]

end Sys2Proof.Machine
end

section
/-! SUPPORT. A write of PRM_HOLD (R308). -/

namespace Sys2Proof.Machine

variable {s : State} {o : Org} {k : Nat}

/-- A write of the high half reaches neither TAKE nor REL. -/
theorem holdOp_high (h : o.size = .high) : holdOp o k 1 s = s ∧ holdOp o k 2 s = s := by
  constructor <;> (rw [holdOp, h]; rfl)

/-- TAKE, in the half that holds it, adds a hold up to 65,535. -/
theorem holdOp_take (h : o.size ≠ .high) : holdOp o k 1 s =
    if 65535 ≤ mget 0 s.holds k then refuseReg o (.prmHold k) 1 s
    else { s with holds := mset 0 s.holds k (mget 0 s.holds k + 1) } := by
  cases hz : o.size with
  | high => exact absurd hz h
  | full | low => rw [holdOp, hz]; rfl

/-- REL, in the half that holds it, takes a hold away while there is one. -/
theorem holdOp_rel (h : o.size ≠ .high) : holdOp o k 2 s =
    if mget 0 s.holds k = 0 then refuseReg o (.prmHold k) 2 s
    else { s with holds := mset 0 s.holds k (mget 0 s.holds k - 1) } := by
  cases hz : o.size with
  | high => exact absurd hz h
  | full | low => rw [holdOp, hz]; rfl

/-- A refused write changes no hold. -/
theorem refuseReg_holds (o : Org) (r : Reg) (v : Word) (s : State) : (refuseReg o r v s).holds = s.holds := by
  rw [refuseReg, refuseWrite_frame]

end Sys2Proof.Machine
end

section
/-! The update regions' registers and holds. -/

namespace Sys2Proof.Machine

/-- Settles O55: each clause is a case of the write of PRM_CFG or of PRM_HOLD, and a read of the table it writes. -/
theorem regionCommands : Obligations.RegionCommands := by
  intro s o k v hl hregs hholds i r w old new p c n
  refine ⟨fun he hb hn => ?busy, fun he hs hf => ?free, fun he hb hc => ?enables,
    fun he hb hc => ?fails, fun he hb => ?stays, fun hz => ?high, fun hz => ⟨fun h => ?takes, fun h => ?full, fun h => ?releases,
    fun h => ?empty⟩⟩
  case busy =>
    obtain ⟨hflt, hkept, -⟩ := refuseReg_refuses o r w s
    have hmore : ¬(s.step.open_ = false ∧ new ≠ old ∧ (new ^^^ old) &&& ~~~ 0x5000000000000000 = 0) := by
      rintro ⟨hs, hne, hd⟩
      rcases hn with h | h | h
      · exact ne_true_of_eq_false hs h
      · exact hne h
      · exact h hd
    exact ⟨_, writes_of_regCmd hl rfl ((prmOp_on he).trans (if_pos ⟨hb, hmore⟩)), hflt, hkept⟩
  case free =>
    refine writes_of_regCmd hl rfl ((prmOp_on he).trans (if_neg ?_))
    rintro ⟨hb, hmore⟩
    rcases hf with hu | hflags
    · exact hb.elim (ne_true_of_eq_false hs) (ne_true_of_eq_false hu)
    · exact hmore ⟨hs, hflags⟩
  case enables => exact writes_of_regCmd hl rfl ((prmOp_off he).trans (if_neg fun h => ne_true_of_eq_false h.2 hc))
  case fails =>
    refine ⟨_, writes_of_regCmd hl rfl ((prmOp_off he).trans (if_pos ⟨hb, hc⟩)), (illegalReg_raises ..).1, ?_⟩
    rw [rd, (illegalReg_raises ..).2]
    exact rd_wr hregs
  case stays => exact writes_of_regCmd hl rfl ((prmOp_off he).trans (if_neg fun h => ne_true_of_eq_false hb h.1))
  case high =>
    obtain ⟨htake, hrel⟩ := holdOp_high (k := i) (s := s) hz
    exact ⟨writes_of_regCmd hl rfl htake, writes_of_regCmd hl rfl hrel⟩
  case takes =>
    exact ⟨_, writes_of_regCmd hl rfl ((holdOp_take hz).trans (if_neg (Nat.not_le.mpr h))), mget_mset_same hholds, fun _ hj => mget_mset_ne hj⟩
  case full =>
    exact ⟨_, writes_of_regCmd hl rfl ((holdOp_take hz).trans (if_pos h)), (refuseReg_refuses ..).1, refuseReg_holds ..⟩
  case releases =>
    exact ⟨_, writes_of_regCmd hl rfl ((holdOp_rel hz).trans (if_neg h)), mget_mset_same hholds, fun _ hj => mget_mset_ne hj⟩
  case empty =>
    exact ⟨_, writes_of_regCmd hl rfl ((holdOp_rel hz).trans (if_pos h)), (refuseReg_refuses ..).1, refuseReg_holds ..⟩

end Sys2Proof.Machine
end
